-- ==== Sys2Proof/Word.lean ====
section
/-! DEFINITION. The words of the www_radio framer: bytes on the wire and in the two buffers, the 11-bit event
word (spec R96), the 15-bit dispatch word (spec R108) and the 10-bit tick counter (spec R23). -/

namespace Sys2Proof

/-- A byte: 8 bits, unsigned, 0 to 255 (spec R10). -/
abbrev Byte := BitVec 8

/-- The 11-bit event word: code in bits 10:8, operand in bits 7:0 (spec R96). -/
abbrev EventWord := BitVec 11

/-- The 15-bit dispatch word: active, hs code, event code, operand (spec R108). -/
abbrev DispatchWord := BitVec 15

/-- The width of `timer`: 10 bits (spec R23). -/
abbrev Ticks := BitVec 10

end Sys2Proof
end

