-- ==== Sys2Proof/Config.lean ====
section
/-! DEFINITION. The parameters of spec R9 with the values this hardware takes, the four strings of spec R92 to
R95, and the two parameters the spec leaves without a value (`BUF_CAP` beyond its lower bound, `FP_OUT`), which
are constants without a body. Assumption log 9, 10, 11, 15. -/

namespace Sys2Proof.Config

/-- `SENTINEL`, the frame start byte (spec R9, fixed). -/
def sentinel : Byte := 0xFF

/-- `CMD_STATUS`, the only recognised command value (spec R9, R84, fixed). -/
def cmdStatus : Byte := 1

/-- `RECORD_LEN`, the bytes of a StatusRecord image (spec R9, fixed). -/
def recordLen : Nat := 40

/-- `MIN_PAYLOAD`, the smallest payload holding a command and a checksum pair (spec R9, fixed). -/
def minPayload : Nat := 3

/-- `SPEED_SCALE`, the divisor of the three fixed-point fields (spec R9, R148, fixed). -/
def speedScale : Nat := 1000

/-- `BUF_SOFT_BOUND` (spec R9, default; U1). -/
def bufSoftBound : Nat := 1024

/-- `BUF_TRIM_KEEP` (spec R9, default; U2). -/
def bufTrimKeep : Nat := 512

/-- `TEXT_WINDOW` (spec R9, default; U3; at least 16). -/
def textWindow : Nat := 500

/-- `DETECT_WINDOW` in ticks (spec R9, default; U4). -/
def detectWindow : Ticks := 1000

/-- `ACK_TIMEOUT` in ticks (spec R9, default; U4). -/
def ackTimeout : Ticks := 200

/-- `TICK_MS`, the milliseconds one `TICK` stands for (spec R9, R244; D4). -/
def tickMs : Nat := 1

/-- `CONFIG_STR`: the 38 bytes of `#CONFIG,0,2402.5,5,0,LORA,5,1600,5,16\n` (spec R92). -/
def configStr : List Byte :=
  [0x23, 0x43, 0x4F, 0x4E, 0x46, 0x49, 0x47, 0x2C, 0x30, 0x2C, 0x32, 0x34, 0x30, 0x32, 0x2E, 0x35, 0x2C, 0x35,
   0x2C, 0x30, 0x2C, 0x4C, 0x4F, 0x52, 0x41, 0x2C, 0x35, 0x2C, 0x31, 0x36, 0x30, 0x30, 0x2C, 0x35, 0x2C, 0x31,
   0x36, 0x0A]

/-- `RUN_STR`: the 5 bytes of `#RUN\n` (spec R93). -/
def runStr : List Byte := [0x23, 0x52, 0x55, 0x4E, 0x0A]

/-- `MARK_NOT_INIT`: the 16 bytes of `#NOT_INITIALIZED` (spec R94). -/
def markNotInit : List Byte :=
  [0x23, 0x4E, 0x4F, 0x54, 0x5F, 0x49, 0x4E, 0x49, 0x54, 0x49, 0x41, 0x4C, 0x49, 0x5A, 0x45, 0x44]

/-- `MARK_OK`: the 3 bytes of `#OK` (spec R95). -/
def markOk : List Byte := [0x23, 0x4F, 0x4B]

/-- How far the physical capacity of the reassembly buffer lies above the least value spec R9 allows: an open
value without a body (spec R9 and R60 say only "at least"). Assumption log 9. -/
opaque bufCapSlack : Nat

/-- `BUF_CAP`: at least `BUF_SOFT_BOUND + 257` = 1281, and otherwise open (spec R9, R60). -/
def bufCap : Nat := bufSoftBound + 257 + bufCapSlack

/-- `FP_OUT`: the floating format a consumer may render a scaled speed in, OPEN (spec R9, R148; D17). A constant
without a body: the bytes a consumer makes of the exact rational are not stated. Assumption log 10. -/
opaque fpOut : Rat → List Byte

end Sys2Proof.Config
end

