-- ==== Sys2Proof/Syntax.lean ====
section
/-! DEFINITION. The instructions of the www_radio framer: one constructor of `Instr` per row of
spec/opcode_table.json (rows that repeat a mnemonic share a constructor: RESET and RESERVED7 stand in the event
and in the dispatch format, FRAME.SHORT on three lines). The table has six formats (spec R109): the input events
at the boundary, the dispatch lines (the block's reaction to one event in one state), the frame classes, the text
markers, the strings the block writes, the fields of the record image, and the internal operations. -/

namespace Sys2Proof

/-- A complete frame after classification by spec R83, with its operands (spec R81). -/
inductive Frame where
  /-- `FRAME.SHORT`: a payload of 0, 1 or 2 bytes, not examined (spec R169). -/
  | short (payload : List Byte)
  /-- `FRAME.STATUS`: command 1, the record data, the checksum pair (spec R167). -/
  | status (recordData : List Byte) (hi lo : Byte)
  /-- `FRAME.UNREC`: a command other than 1, its record data, the checksum pair (spec R168). -/
  | unrec (command : Byte) (recordData : List Byte) (hi lo : Byte)
  deriving DecidableEq, Repr

/-- One constructor per row of the opcode table. `b` is the received byte of an RX event; the other events have no
operand (spec R97), so the ignored operand bits of their words (spec R98) leave no trace in the instruction. -/
inductive Instr where
  -- format `event`: the input events (spec R97)
  | reset
  | start
  | stop
  | closed
  | tick
  | rx (b : Byte)
  | send
  | reserved7
  -- format `dispatch`: the block's reaction, one line of the table of spec R108 each
  | startIdle
  | startActive
  | stopIdle
  | stopActive
  | closedIdle
  | closedActive
  | tickIdle
  | tickDetectingInit
  | tickConfigSent
  | tickAwaitingFirstAck
  | tickRunSent
  | tickAwaitingSecondAck
  | tickStreaming
  | rxIdle (b : Byte)
  | rxDetectingInit (b : Byte)
  | rxConfigSent (b : Byte)
  | rxAwaitingFirstAck (b : Byte)
  | rxRunSent (b : Byte)
  | rxAwaitingSecondAck (b : Byte)
  | rxStreaming (b : Byte)
  | sendConfigSent
  | sendRunSent
  | sendOther
  -- format `frame`: the frame classes (spec R83)
  | frameShort (payload : List Byte)
  | frameStatus (recordData : List Byte) (hi lo : Byte)
  | frameUnrec (command : Byte) (recordData : List Byte) (hi lo : Byte)
  -- format `marker` (spec R94, R95)
  | markNotInit
  | markOk
  -- format `tx_string` (spec R92, R93)
  | configStr
  | runStr
  -- format `record_field`: one field of the record data `r` (spec R86)
  | recId (r : List Byte)
  | recSyncId (r : List Byte)
  | recTimeOffsetMs (r : List Byte)
  | recPadding (r : List Byte)
  | recLatitude (r : List Byte)
  | recLongitude (r : List Byte)
  | recHeading (r : List Byte)
  | recCovPos (r : List Byte)
  | recSpeedX (r : List Byte)
  | recSpeedY (r : List Byte)
  | recRotSpeed (r : List Byte)
  | recDriveMode (r : List Byte)
  | recAuxDataStatus (r : List Byte)
  -- format `internal`: no bit encoding (spec R109)
  | checksum (d : List Byte)
  | validate (d : List Byte) (hi lo : Byte)
  | decode (r : List Byte)
  | feed (chunk : List Byte)
  deriving DecidableEq, Repr

/-- The instruction of a classified frame. -/
def Frame.toInstr : Frame → Instr
  | .short p => .frameShort p
  | .status r hi lo => .frameStatus r hi lo
  | .unrec c r hi lo => .frameUnrec c r hi lo

/-- The encoded forms of an instruction, one per format of spec R109 that has bits. -/
inductive Words where
  /-- an 11-bit event word (spec R96) -/
  | event (w : EventWord)
  /-- a 15-bit dispatch word (spec R108) -/
  | dispatch (w : DispatchWord)
  /-- the bytes of one whole frame, sentinel first (spec R80) -/
  | frame (bytes : List Byte)
  /-- the bytes of a text marker, in wire order (spec R94, R95) -/
  | marker (bytes : List Byte)
  /-- the bytes of a string the block writes (spec R92, R93) -/
  | txString (bytes : List Byte)
  /-- a field of the record data, named by its record offset and its size in bytes (spec R86) -/
  | recordField (offset size : Nat) (r : List Byte)
  deriving DecidableEq, Repr

/-- Why the decoder refuses an encoded form, by name. -/
inductive Reject where
  /-- no line of the dispatch table matches: RX or TICK with `active = 1` and `hs` code 6 or 7 (spec R108) -/
  | noDispatchRow
  /-- a frame must begin with 0xFF (spec R80) -/
  | noSentinel
  /-- fewer than `2 + L` bytes are there (spec R163, R164) -/
  | incompleteFrame
  /-- bytes follow the frame -/
  | trailingBytes
  /-- the bytes are neither marker (spec R94, R95) -/
  | unknownMarker
  /-- the bytes are neither string the block writes (spec R92, R93) -/
  | unknownTxString
  /-- no field of the record has this offset and size (spec R86) -/
  | unknownField
  /-- record data of a field outside 40 to 252 bytes (spec R130, R131) -/
  | badRecordLength
  deriving DecidableEq, Repr

end Sys2Proof
end

