-- ==== Sys2Proof/WellFormed.lean ====
section
/-! DEFINITION. Which instruction terms stand for something the block can meet: the operand lengths of the frame
classes (spec R81, R83), of record data (spec R130, R131) and the command of FRAME.UNREC (spec R83). -/

namespace Sys2Proof

/-- Record data that holds a whole image: 40 to 252 bytes (spec R130, R131). -/
def recordDataOk (r : List Byte) : Bool := Config.recordLen ≤ r.length && r.length ≤ 252

/-- The operand checks of an instruction. -/
def WellFormed (i : Instr) : Bool :=
  match i with
  | .reset => true
  | .start => true
  | .stop => true
  | .closed => true
  | .tick => true
  | .rx _ => true
  | .send => true
  | .reserved7 => true
  | .startIdle => true
  | .startActive => true
  | .stopIdle => true
  | .stopActive => true
  | .closedIdle => true
  | .closedActive => true
  | .tickIdle => true
  | .tickDetectingInit => true
  | .tickConfigSent => true
  | .tickAwaitingFirstAck => true
  | .tickRunSent => true
  | .tickAwaitingSecondAck => true
  | .tickStreaming => true
  | .rxIdle _ => true
  | .rxDetectingInit _ => true
  | .rxConfigSent _ => true
  | .rxAwaitingFirstAck _ => true
  | .rxRunSent _ => true
  | .rxAwaitingSecondAck _ => true
  | .rxStreaming _ => true
  | .sendConfigSent => true
  | .sendRunSent => true
  | .sendOther => true
  | .frameShort payload => payload.length < Config.minPayload
  | .frameStatus r _ _ => r.length ≤ 252
  | .frameUnrec c r _ _ => c != Config.cmdStatus && r.length ≤ 252
  | .markNotInit => true
  | .markOk => true
  | .configStr => true
  | .runStr => true
  | .recId r => recordDataOk r
  | .recSyncId r => recordDataOk r
  | .recTimeOffsetMs r => recordDataOk r
  | .recPadding r => recordDataOk r
  | .recLatitude r => recordDataOk r
  | .recLongitude r => recordDataOk r
  | .recHeading r => recordDataOk r
  | .recCovPos r => recordDataOk r
  | .recSpeedX r => recordDataOk r
  | .recSpeedY r => recordDataOk r
  | .recRotSpeed r => recordDataOk r
  | .recDriveMode r => recordDataOk r
  | .recAuxDataStatus r => recordDataOk r
  | .checksum _ => true
  | .validate _ _ _ => true
  | .decode r => r.length ≤ 252
  | .feed _ => true

end Sys2Proof
end

