-- ==== Sys2Proof/Decode.lean ====
section
/-! DEFINITION. The decoder, total on any bits and bytes and refusing by name, and after it the encoder, both
written from the tables of spec/30_encoding.md (R80 to R99, R108). At the end, the reading of a word as
spec/opcode_table.json numbers it. -/

namespace Sys2Proof

/-! ### Byte sequences (spec R11) -/

/-- `s[a..b]`: the bytes with index `i`, `a <= i < b` (spec R11). -/
def slice (a b : Nat) (s : List Byte) : List Byte := (s.take b).drop a

/-- `s[i]` (spec R11). Every use stands behind a test that `i < |s|`; the 0 past the end reaches no result. -/
def byteAt (s : List Byte) (i : Nat) : Byte := s.getD i 0

/-! ### Event words (spec R96, R97) -/

/-- Bits 10:8 of an event word. -/
def eventCode (w : EventWord) : BitVec 3 := w.extractLsb' 8 3

/-- Bits 7:0 of an event word. -/
def eventOperand (w : EventWord) : Byte := w.extractLsb' 0 8

/-- The input event of an event word: total, and the operand of every event but RX is ignored (spec R97, R98). -/
def decodeEvent (w : EventWord) : Instr :=
  match (eventCode w).toNat with
  | 0 => .reset
  | 1 => .start
  | 2 => .stop
  | 3 => .closed
  | 4 => .tick
  | 5 => .rx (eventOperand w)
  | 6 => .send
  | _ => .reserved7

/-! ### Dispatch words (spec R108) -/

/-- One line of the dispatch table: `word & mask = pattern` selects `row`, which gets the operand bits. -/
structure DispatchRow where
  pattern : DispatchWord
  mask : DispatchWord
  row : Byte → Instr

/-- The lines of spec R108 for RESET, START, STOP and CLOSED. -/
def sessionRows : List DispatchRow :=
  [⟨0x0000, 0x0700, fun _ => .reset⟩,
   ⟨0x0100, 0x4700, fun _ => .startIdle⟩,
   ⟨0x4100, 0x4700, fun _ => .startActive⟩,
   ⟨0x0200, 0x4700, fun _ => .stopIdle⟩,
   ⟨0x4200, 0x4700, fun _ => .stopActive⟩,
   ⟨0x0300, 0x4700, fun _ => .closedIdle⟩,
   ⟨0x4300, 0x4700, fun _ => .closedActive⟩]

/-- The lines of spec R108 for TICK. -/
def tickRows : List DispatchRow :=
  [⟨0x0400, 0x4700, fun _ => .tickIdle⟩,
   ⟨0x4400, 0x7F00, fun _ => .tickDetectingInit⟩,
   ⟨0x4C00, 0x7F00, fun _ => .tickConfigSent⟩,
   ⟨0x5400, 0x7F00, fun _ => .tickAwaitingFirstAck⟩,
   ⟨0x5C00, 0x7F00, fun _ => .tickRunSent⟩,
   ⟨0x6400, 0x7F00, fun _ => .tickAwaitingSecondAck⟩,
   ⟨0x6C00, 0x7F00, fun _ => .tickStreaming⟩]

/-- The lines of spec R108 for RX. -/
def rxRows : List DispatchRow :=
  [⟨0x0500, 0x4700, .rxIdle⟩,
   ⟨0x4500, 0x7F00, .rxDetectingInit⟩,
   ⟨0x4D00, 0x7F00, .rxConfigSent⟩,
   ⟨0x5500, 0x7F00, .rxAwaitingFirstAck⟩,
   ⟨0x5D00, 0x7F00, .rxRunSent⟩,
   ⟨0x6500, 0x7F00, .rxAwaitingSecondAck⟩,
   ⟨0x6D00, 0x7F00, .rxStreaming⟩]

/-- The lines of spec R108 for SEND (the two specific lines before the general one) and for code 7. -/
def sendRows : List DispatchRow :=
  [⟨0x4E00, 0x7F00, fun _ => .sendConfigSent⟩,
   ⟨0x5E00, 0x7F00, fun _ => .sendRunSent⟩,
   ⟨0x0600, 0x0700, fun _ => .sendOther⟩,
   ⟨0x0700, 0x0700, fun _ => .reserved7⟩]

/-- The dispatch table, in priority order (spec R108, R109). -/
def dispatchTable : List DispatchRow := sessionRows ++ tickRows ++ rxRows ++ sendRows

/-- Bits 7:0 of a dispatch word. -/
def dispatchOperand (w : DispatchWord) : Byte := w.extractLsb' 0 8

/-- The line a dispatch word selects: the first that matches (spec R108, R109). RX and TICK with `active = 1` and
`hs` code 6 or 7 have no line. -/
def decodeDispatch (w : DispatchWord) : Except Reject Instr :=
  match dispatchTable.find? (fun r => w &&& r.mask == r.pattern) with
  | some r => .ok (r.row (dispatchOperand w))
  | none => .error .noDispatchRow

/-! ### Frames (spec R80 to R83) -/

/-- The class and the operands of a payload, the tests in the order of spec R166: under-length, then command. -/
def classify (payload : List Byte) : Frame :=
  if payload.length < Config.minPayload then .short payload
  else
    let recordData := slice 1 (payload.length - 2) payload
    let hi := byteAt payload (payload.length - 2)
    let lo := byteAt payload (payload.length - 1)
    if byteAt payload 0 = Config.cmdStatus then .status recordData hi lo
    else .unrec (byteAt payload 0) recordData hi lo

/-- The length of the frame whose sentinel is at the front of `bs`: `2 + L`, nine bits, no wrap (spec R82, R88). -/
def frameTotal (bs : List Byte) : Nat := 2 + (byteAt bs 1).toNat

/-- The frame at the front of a byte sequence, and the bytes behind it. -/
def decodeFrame (bs : List Byte) : Except Reject (Frame × List Byte) :=
  if bs.head? = some Config.sentinel then
    if bs.length < 2 then .error .incompleteFrame
    else if bs.length < frameTotal bs then .error .incompleteFrame
    else .ok (classify (slice 2 (frameTotal bs) bs), bs.drop (frameTotal bs))
  else .error .noSentinel

/-! ### Record fields (spec R86) -/

/-- One row of the record layout: the record offset, the size in bytes, and the field's instruction. -/
structure FieldRow where
  offset : Nat
  size : Nat
  row : List Byte → Instr

/-- The layout of the 40-byte image (spec R86). -/
def fieldTable : List FieldRow :=
  [⟨0, 2, .recId⟩, ⟨2, 2, .recSyncId⟩, ⟨4, 2, .recTimeOffsetMs⟩, ⟨6, 2, .recPadding⟩, ⟨8, 8, .recLatitude⟩,
   ⟨16, 8, .recLongitude⟩, ⟨24, 4, .recHeading⟩, ⟨28, 4, .recCovPos⟩, ⟨32, 2, .recSpeedX⟩, ⟨34, 2, .recSpeedY⟩,
   ⟨36, 2, .recRotSpeed⟩, ⟨38, 1, .recDriveMode⟩, ⟨39, 1, .recAuxDataStatus⟩]

/-- The field instruction at a record offset. -/
def decodeField (offset size : Nat) (r : List Byte) : Except Reject Instr :=
  match fieldTable.find? (fun f => f.offset == offset && f.size == size) with
  | some f => if recordDataOk r then .ok (f.row r) else .error .badRecordLength
  | none => .error .unknownField

/-! ### Markers and written strings (spec R92 to R95) -/

/-- The marker of a byte sequence (spec R94, R95). -/
def decodeMarker (bs : List Byte) : Except Reject Instr :=
  if bs = Config.markNotInit then .ok .markNotInit
  else if bs = Config.markOk then .ok .markOk
  else .error .unknownMarker

/-- The written string of a byte sequence (spec R92, R93). -/
def decodeTxString (bs : List Byte) : Except Reject Instr :=
  if bs = Config.configStr then .ok .configStr
  else if bs = Config.runStr then .ok .runStr
  else .error .unknownTxString

/-! ### All formats together -/

/-- The instruction of an encoded form, or the name of the reason it has none. -/
def decode (ws : Words) : Except Reject Instr :=
  match ws with
  | .event w => .ok (decodeEvent w)
  | .dispatch w => decodeDispatch w
  | .frame bs =>
    match decodeFrame bs with
    | .error e => .error e
    | .ok (f, rest) => if rest = [] then .ok f.toInstr else .error .trailingBytes
  | .marker bs => decodeMarker bs
  | .txString bs => decodeTxString bs
  | .recordField o n r => decodeField o n r

/-! ### The encoder -/

/-- An event word from its code and operand (spec R96). -/
def eventWord (code : BitVec 3) (operand : Byte) : EventWord := code ++ operand

/-- The event word of `RX(b)` (spec R97). -/
def rxWord (b : Byte) : EventWord := eventWord 5 b

/-- A dispatch line's pattern with an operand in bits 7:0 (spec R108). -/
def withOperand (pattern : DispatchWord) (b : Byte) : DispatchWord := pattern ||| b.setWidth 15

/-- The payload bytes of a frame, in wire order (spec R81). -/
def Frame.payload : Frame → List Byte
  | .short p => p
  | .status r hi lo => Config.cmdStatus :: (r ++ [hi, lo])
  | .unrec c r hi lo => c :: (r ++ [hi, lo])

/-- The bytes of a whole frame: sentinel, length, payload (spec R80). -/
def Frame.bytes (f : Frame) : List Byte :=
  Config.sentinel :: BitVec.ofNat 8 f.payload.length :: f.payload

/-- The encoded form of an instruction, written from the tables of spec R83, R86, R92 to R97 and R108; the four
internal operations have none (spec R109). RESET and RESERVED7 stand in two formats: their event word is given. -/
def encode (i : Instr) : Option Words :=
  match i with
  | .reset => some (.event (eventWord 0 0))
  | .start => some (.event (eventWord 1 0))
  | .stop => some (.event (eventWord 2 0))
  | .closed => some (.event (eventWord 3 0))
  | .tick => some (.event (eventWord 4 0))
  | .rx b => some (.event (rxWord b))
  | .send => some (.event (eventWord 6 0))
  | .reserved7 => some (.event (eventWord 7 0))
  | .startIdle => some (.dispatch 0x0100)
  | .startActive => some (.dispatch 0x4100)
  | .stopIdle => some (.dispatch 0x0200)
  | .stopActive => some (.dispatch 0x4200)
  | .closedIdle => some (.dispatch 0x0300)
  | .closedActive => some (.dispatch 0x4300)
  | .tickIdle => some (.dispatch 0x0400)
  | .tickDetectingInit => some (.dispatch 0x4400)
  | .tickConfigSent => some (.dispatch 0x4C00)
  | .tickAwaitingFirstAck => some (.dispatch 0x5400)
  | .tickRunSent => some (.dispatch 0x5C00)
  | .tickAwaitingSecondAck => some (.dispatch 0x6400)
  | .tickStreaming => some (.dispatch 0x6C00)
  | .rxIdle b => some (.dispatch (withOperand 0x0500 b))
  | .rxDetectingInit b => some (.dispatch (withOperand 0x4500 b))
  | .rxConfigSent b => some (.dispatch (withOperand 0x4D00 b))
  | .rxAwaitingFirstAck b => some (.dispatch (withOperand 0x5500 b))
  | .rxRunSent b => some (.dispatch (withOperand 0x5D00 b))
  | .rxAwaitingSecondAck b => some (.dispatch (withOperand 0x6500 b))
  | .rxStreaming b => some (.dispatch (withOperand 0x6D00 b))
  | .sendConfigSent => some (.dispatch 0x4E00)
  | .sendRunSent => some (.dispatch 0x5E00)
  | .sendOther => some (.dispatch 0x0600)
  | .frameShort p => some (.frame (Frame.short p).bytes)
  | .frameStatus r hi lo => some (.frame (Frame.status r hi lo).bytes)
  | .frameUnrec c r hi lo => some (.frame (Frame.unrec c r hi lo).bytes)
  | .markNotInit => some (.marker Config.markNotInit)
  | .markOk => some (.marker Config.markOk)
  | .configStr => some (.txString Config.configStr)
  | .runStr => some (.txString Config.runStr)
  | .recId r => some (.recordField 0 2 r)
  | .recSyncId r => some (.recordField 2 2 r)
  | .recTimeOffsetMs r => some (.recordField 4 2 r)
  | .recPadding r => some (.recordField 6 2 r)
  | .recLatitude r => some (.recordField 8 8 r)
  | .recLongitude r => some (.recordField 16 8 r)
  | .recHeading r => some (.recordField 24 4 r)
  | .recCovPos r => some (.recordField 28 4 r)
  | .recSpeedX r => some (.recordField 32 2 r)
  | .recSpeedY r => some (.recordField 34 2 r)
  | .recRotSpeed r => some (.recordField 36 2 r)
  | .recDriveMode r => some (.recordField 38 1 r)
  | .recAuxDataStatus r => some (.recordField 39 1 r)
  | .checksum _ => none
  | .validate _ _ _ => none
  | .decode _ => none
  | .feed _ => none

/-! ### Words as the opcode table numbers them -/

/-- `n` bytes of a number, the first byte the most significant (spec R109: frame, marker and tx_string rows are
numbers formed by the bytes in wire order). -/
def wireBytes (n w : Nat) : List Byte :=
  (List.range n).map (fun k => BitVec.ofNat 8 (w >>> (8 * (n - 1 - k))))

/-- The bytes of the frame whose first three bytes are a table word, every byte behind them zero (spec R109; for
`L = 0` the third byte is not part of the frame). -/
def tableFrameBytes (w : Nat) : List Byte :=
  let bs := wireBytes 3 w ++ List.replicate 254 0
  bs.take (frameTotal bs)

/-- The encoded form a table word stands for. Two bytes: an event word where the bits above 10 are 0, else a
dispatch word where bit 15 is 0 (the table's event rows come first; assumption log 16). Three bytes: a frame where
the first byte is the sentinel, else a marker. Five, sixteen and thirty-eight bytes: RUN_STR, MARK_NOT_INIT,
CONFIG_STR. -/
def tableWords (nbits w : Nat) : Option Words :=
  if nbits = 16 then
    if w < 0x800 then some (.event (BitVec.ofNat 11 w))
    else if w < 0x8000 then some (.dispatch (BitVec.ofNat 15 w))
    else none
  else if nbits = 24 then
    if byteAt (wireBytes 3 w) 0 = Config.sentinel then some (.frame (tableFrameBytes w))
    else some (.marker (wireBytes 3 w))
  else if nbits = 40 then some (.txString (wireBytes 5 w))
  else if nbits = 128 then some (.marker (wireBytes 16 w))
  else if nbits = 304 then some (.txString (wireBytes 38 w))
  else none

/-- The instruction the decoder reads from a table word of `nbits` bits. -/
def decodeTableWord (nbits w : Nat) : Option Instr :=
  match tableWords nbits w with
  | some ws =>
    match decode ws with
    | .ok i => some i
    | .error _ => none
  | none => none

end Sys2Proof
end

