-- ==== Sys2Proof/Machine/State.lean ====
section
/-! DEFINITION. The state of the machine as plain data: the six elements of spec R20, the output trace (spec R14),
the transport's waiting bytes (spec R32 a), and the model's own two fields (`inbox`, `result`). -/

namespace Sys2Proof.Machine

/-- The HandshakeState, in the order the source lists it (spec R22, R99). Code 7 is excluded by the type (U9). -/
inductive HandshakeState where
  | detectingInit | configSent | awaitingFirstAck | runSent | awaitingSecondAck | streaming | failed
  deriving DecidableEq, Repr

/-- The values of `err` (spec R24, R105). Code 3 is excluded by the type (U9). -/
inductive ErrorCode where
  | none | handshakeTimeout | transportClosed
  deriving DecidableEq, Repr

/-- A decoded record (spec R101): `u16` fields as words, `i16` fields as the integers `sint16` gives, floats as bit
patterns, the three fixed-point fields as raw counts of 1/1000. -/
structure StatusRecord where
  id : BitVec 16
  syncId : BitVec 16
  timeOffsetMs : Int
  latitude : BitVec 64
  longitude : BitVec 64
  heading : BitVec 32
  covPos : BitVec 32
  speedX : Int
  speedY : Int
  rotSpeed : Int
  driveMode : Byte
  auxDataStatus : Byte
  deriving DecidableEq, Repr

/-- The kinds of diagnostic (spec R102). The third is never emitted (spec R85, R275; C2). -/
inductive DiagKind where
  | checksumMismatch | decodeTooShort | unrecognizedCommand
  deriving DecidableEq, Repr

/-- The codes of a STATUS event (spec R103). -/
inductive StatusCode where
  | connected | handshakeTimeout | transportClosed
  deriving DecidableEq, Repr

/-- The four kinds of output event (spec R100 to R104). -/
inductive Output where
  /-- `TX(s)` -/
  | tx (s : List Byte)
  /-- `REC(r)` -/
  | record (r : StatusRecord)
  /-- `DIAG(kind, raw)` -/
  | diag (kind : DiagKind) (raw : List Byte)
  /-- `STATUS(code)` -/
  | status (code : StatusCode)
  deriving DecidableEq, Repr

/-- The one variant of the decoder's error (spec R105, R131). -/
inductive DecodeError where
  | tooShort
  deriving DecidableEq, Repr

/-- What a pure operation or a record field run as an instruction of its own returns (the model's own type;
assumption log 7). -/
inductive Result where
  /-- nothing was run yet -/
  | none
  /-- a `u8` field -/
  | u8 (v : Byte)
  /-- a `u16`: CHECKSUM, or a `u16` field -/
  | u16 (v : BitVec 16)
  /-- an `i16` field -/
  | i16 (v : Int)
  /-- the raw count of a fixed-point field -/
  | milli (raw : Int)
  /-- the bit pattern of an `f32` field -/
  | f32 (v : BitVec 32)
  /-- the bit pattern of an `f64` field -/
  | f64 (v : BitVec 64)
  /-- the padding: skipped, no value (spec R137) -/
  | skipped
  /-- VALIDATE -/
  | bool (v : Bool)
  /-- DECODE with at least 40 bytes -/
  | record (r : StatusRecord)
  /-- DECODE, or a field, with fewer than 40 bytes (spec R131) -/
  | tooShort
  deriving DecidableEq, Repr

/-- The whole state. -/
structure State where
  /-- 1 while a session exists (spec R21) -/
  active : Bool
  /-- the control state (spec R22) -/
  hs : HandshakeState
  /-- TICKs since the text state was entered (spec R23) -/
  timer : Ticks
  /-- the last terminal error (spec R24) -/
  err : ErrorCode
  /-- the text accumulator, oldest byte first (spec R25) -/
  txt : List Byte
  /-- the reassembly buffer, oldest byte first (spec R26) -/
  buf : List Byte
  /-- the output trace, oldest event first (spec R14, R100) -/
  out : List Output
  /-- bytes the transport has and the block has not taken, oldest first (spec R32 a, R218) -/
  held : List Byte
  /-- the model's own: the environment's events still to come, next one first (assumption log 1) -/
  inbox : List EventWord
  /-- the model's own: what the last pure operation run by itself returned (assumption log 7) -/
  result : Result
  deriving DecidableEq, Repr

/-- The machine stops with no fault: the block has no trap and no fault (spec R85, R282); its five errors have
fixed reactions that are next states (spec R270). So the type has no constructor. -/
inductive Fault where
  deriving DecidableEq, Repr

/-- Why a step has no meaning. -/
inductive Refusal where
  /-- raised by an arm of `exec` whose instruction has no meaning yet; safe -/
  | notModelled (mnemonic : String)
  /-- raised by FEED of a whole chunk that would take the buffer past BUF_CAP, which the spec has a model refuse
  (spec R60, U10, D24); no input event raises it; safe -/
  | bufCapacity
  deriving DecidableEq, Repr

/-- What one step answers. -/
abbrev Answer := Host.Outcome State Fault Refusal

namespace State

/-- The machine right after reset: the six values of spec R311; nothing emitted, waiting, to come or returned
(assumption log 1, 2, 3, 7). -/
def reset : State where
  active := false
  hs := .detectingInit
  timer := 0
  err := .none
  txt := []
  buf := []
  out := []
  held := []
  inbox := []
  result := .none

/-- `active <- v` -/
def setActive (v : Bool) (s : State) : State := { s with active := v }
/-- `hs <- v` -/
def setHs (v : HandshakeState) (s : State) : State := { s with hs := v }
/-- `timer <- v` -/
def setTimer (v : Ticks) (s : State) : State := { s with timer := v }
/-- `err <- v` -/
def setErr (v : ErrorCode) (s : State) : State := { s with err := v }
/-- `txt <- v` -/
def setTxt (v : List Byte) (s : State) : State := { s with txt := v }
/-- `buf <- v` -/
def setBuf (v : List Byte) (s : State) : State := { s with buf := v }
/-- the transport's waiting bytes become `v` -/
def setHeld (v : List Byte) (s : State) : State := { s with held := v }
/-- the environment's events to come become `v` -/
def setInbox (v : List EventWord) (s : State) : State := { s with inbox := v }
/-- the value returned becomes `v` -/
def setResult (v : Result) (s : State) : State := { s with result := v }
/-- `emit` for several events in order (spec R14) -/
def emitAll (es : List Output) (s : State) : State := { s with out := s.out ++ es }

end State

end Sys2Proof.Machine
end

