-- ==== Sys2Proof/Machine/Operands.lean ====
section
/-! DEFINITION. How values are assembled from bytes (spec R12, R13) and which code each enumeration has (spec R97,
R99, R100, R102, R103, R105), with the dispatch word of a state and an event (spec R108). -/

namespace Sys2Proof.Machine

/-- `le16(s, o)` (spec R12). -/
def le16 (s : List Byte) (o : Nat) : BitVec 16 := byteAt s (o + 1) ++ byteAt s o

/-- `le32(s, o)` (spec R12). -/
def le32 (s : List Byte) (o : Nat) : BitVec 32 := le16 s (o + 2) ++ le16 s o

/-- `le64(s, o)` (spec R12). -/
def le64 (s : List Byte) (o : Nat) : BitVec 64 := le32 s (o + 4) ++ le32 s o

/-- `be16(hi, lo) = (hi << 8) | lo`, the only big-endian quantity (spec R12, R51). -/
def be16 (hi lo : Byte) : BitVec 16 := hi ++ lo

/-- `sint16(v)`: the pattern read as a two's-complement integer (spec R13, R133). -/
def sint16 (v : BitVec 16) : Int := if v.toNat < 32768 then v.toNat else (v.toNat : Int) - 65536

/-- The two bytes of a 16-bit value, the less significant first (spec R50; used by the test device ENCODE). -/
def bytesLe16 (v : BitVec 16) : List Byte := [v.extractLsb' 0 8, v.extractLsb' 8 8]

/-- The four bytes of a 32-bit value, the less significant first. -/
def bytesLe32 (v : BitVec 32) : List Byte := bytesLe16 (v.extractLsb' 0 16) ++ bytesLe16 (v.extractLsb' 16 16)

/-- The eight bytes of a 64-bit value, the less significant first. -/
def bytesLe64 (v : BitVec 64) : List Byte := bytesLe32 (v.extractLsb' 0 32) ++ bytesLe32 (v.extractLsb' 32 32)

/-- The code of a HandshakeState (spec R99). -/
def hsCode (h : HandshakeState) : BitVec 3 :=
  match h with
  | .detectingInit => 0
  | .configSent => 1
  | .awaitingFirstAck => 2
  | .runSent => 3
  | .awaitingSecondAck => 4
  | .streaming => 5
  | .failed => 6

/-- The HandshakeState of a code; code 7 has none (spec R99). -/
def hsOfCode (c : BitVec 3) : Option HandshakeState :=
  match c.toNat with
  | 0 => some .detectingInit
  | 1 => some .configSent
  | 2 => some .awaitingFirstAck
  | 3 => some .runSent
  | 4 => some .awaitingSecondAck
  | 5 => some .streaming
  | 6 => some .failed
  | _ => none

/-- The code of `err` (spec R105). -/
def errCode (e : ErrorCode) : BitVec 2 :=
  match e with
  | .none => 0
  | .handshakeTimeout => 1
  | .transportClosed => 2

/-- The kind code of an output event (spec R100). -/
def outputKindCode (o : Output) : BitVec 2 :=
  match o with
  | .tx _ => 0
  | .record _ => 1
  | .diag _ _ => 2
  | .status _ => 3

/-- The code of a diagnostic kind (spec R102). -/
def diagKindCode (k : DiagKind) : BitVec 2 :=
  match k with
  | .checksumMismatch => 0
  | .decodeTooShort => 1
  | .unrecognizedCommand => 2

/-- The code of a STATUS event (spec R103). -/
def statusCode (c : StatusCode) : BitVec 2 :=
  match c with
  | .connected => 0
  | .handshakeTimeout => 1
  | .transportClosed => 2

/-- The dispatch word of a state and an event word: `active` in bit 14, the code of `hs` in bits 13:11, the event
word below (spec R108). -/
def dispatchWord (s : State) (w : EventWord) : DispatchWord :=
  (BitVec.ofBool s.active ++ hsCode s.hs : BitVec 4) ++ w

end Sys2Proof.Machine
end

