-- ==== Sys2Proof/Machine/Flags.lean ====
section
/-! DEFINITION. The conditions the rules test. The block keeps no arithmetic flag (spec R28); its only status bits
are `active` and `err`, and `active` with `hs` decides the operating mode (spec R290), whether RX is held (spec
R218), whether SEND is enabled (spec R206), and which dispatch line an event selects (spec R108). -/

namespace Sys2Proof.Machine

/-- The operating modes of spec R290; there are no privilege levels. -/
inductive Mode where
  | idle | text | framed
  deriving DecidableEq, Repr

/-- The text states (spec R17, R200). -/
def isTextState (h : HandshakeState) : Bool :=
  match h with
  | .detectingInit => true
  | .configSent => false
  | .awaitingFirstAck => true
  | .runSent => false
  | .awaitingSecondAck => true
  | .streaming => false
  | .failed => false

/-- The write states (spec R17, R200). -/
def isWriteState (h : HandshakeState) : Bool :=
  match h with
  | .detectingInit => false
  | .configSent => true
  | .awaitingFirstAck => false
  | .runSent => true
  | .awaitingSecondAck => false
  | .streaming => false
  | .failed => false

/-- The operating mode (spec R290). `active = 1` with `hs = Failed` is in no reachable state (spec R33 vii); as its
events are ignored (assumption log 12) it counts as idle. -/
def State.mode (s : State) : Mode :=
  if s.active then
    match s.hs with
    | .detectingInit => .text
    | .configSent => .text
    | .awaitingFirstAck => .text
    | .runSent => .text
    | .awaitingSecondAck => .text
    | .streaming => .framed
    | .failed => .idle
  else .idle

/-- `active = 1 and hs = h`: the condition of a dispatch line (spec R108). -/
def State.inState (s : State) (h : HandshakeState) : Bool := s.active && s.hs == h

/-- A write is pending: `active = 1` and `hs` is a write state. -/
def State.writePending (s : State) : Bool := s.active && isWriteState s.hs

/-- RX is held exactly while a write is pending (spec R218). -/
def State.rxHeld (s : State) : Bool := s.writePending

/-- SEND is enabled if and only if a write is pending (spec R206). -/
def State.sendEnabled (s : State) : Bool := s.writePending

/-- The marker the current text state waits for (spec R90). -/
def awaitedMarker (h : HandshakeState) : Option (List Byte) :=
  match h with
  | .detectingInit => some Config.markNotInit
  | .configSent => none
  | .awaitingFirstAck => some Config.markOk
  | .runSent => none
  | .awaitingSecondAck => some Config.markOk
  | .streaming => none
  | .failed => none

/-- The window of the current text state, in ticks (spec R203, R209, R211). -/
def tickWindow (h : HandshakeState) : Option Ticks :=
  match h with
  | .detectingInit => some Config.detectWindow
  | .configSent => none
  | .awaitingFirstAck => some Config.ackTimeout
  | .runSent => none
  | .awaitingSecondAck => some Config.ackTimeout
  | .streaming => none
  | .failed => none

end Sys2Proof.Machine
end

