-- ==== Sys2Proof/Machine/Ops.lean ====
section
/-! DEFINITION. The operations the instructions share: byte sequences (spec R11), the buffer and text operations
(spec R56 to R58, R61), emitting (spec R14), teardown and taking an exception (spec R270 to R283), and the
selection of a dispatch line. -/

namespace Sys2Proof.Machine

/-! ### Byte sequences (spec R11) -/

/-- `last(n, s)` (spec R11). -/
def last (n : Nat) (s : List Byte) : List Byte := s.drop (s.length - n)

/-- `find(v, s)`: the least index holding `v` (spec R11). -/
def find (v : Byte) (s : List Byte) : Option Nat :=
  match s with
  | [] => none
  | b :: bs => if b = v then some 0 else (find v bs).map (· + 1)

/-- `contains(s, m)`: some slice of `s` equals `m` (spec R11). -/
def contains (s m : List Byte) : Bool :=
  match s with
  | [] => m.isPrefixOf []
  | b :: bs => m.isPrefixOf (b :: bs) || contains bs m

/-! ### The two memories -/

/-- `MemRead(off, n)`: `n` bytes at offset `off` of the buffer (spec R14). -/
def memRead (buf : List Byte) (off n : Nat) : List Byte := slice off (off + n) buf

/-- `append(c)` (spec R56). -/
def append (c buf : List Byte) : List Byte := buf ++ c

/-- `drop_front(n)` (spec R57). -/
def dropFront (n : Nat) (buf : List Byte) : List Byte := buf.drop n

/-- `trim` (spec R58). -/
def trim (buf : List Byte) : List Byte := last Config.bufTrimKeep buf

/-- `txt_push(b)` (spec R61). -/
def txtPush (b : Byte) (txt : List Byte) : List Byte := last Config.textWindow (txt ++ [b])

/-- `txt_clear` (spec R61). -/
def txtClear (s : State) : State := s.setTxt []

/-- A buffer in which the extraction loop can make no progress (spec R33 iv): no sentinel and at most
BUF_SOFT_BOUND bytes, or a first sentinel whose frame is not complete. -/
def drained (buf : List Byte) : Bool :=
  match find Config.sentinel buf with
  | none => buf.length ≤ Config.bufSoftBound
  | some off => buf.length - off < 2 || buf.length - off < 2 + (byteAt buf (off + 1)).toNat

/-- The form both memories keep between events (spec R33 i, iv): the text within its window, the buffer drained.
A byte sequence has one form as a list, so equal memories are equal data (assumption log 18). -/
def Memory.wf (s : State) : Bool := s.txt.length ≤ Config.textWindow && drained s.buf

/-! ### Output and the end of a session -/

/-- `emit E` (spec R14). -/
def emit (e : Output) (s : State) : State := s.emitAll [e]

/-- Teardown (spec R282): `active <- 0; txt <- []; buf <- []`. -/
def teardown (s : State) : State := ((s.setActive false).setTxt []).setBuf []

/-- Entering Streaming, on either of its two paths (spec R203, R210). -/
def connect (s : State) : State := emit (.status .connected) (txtClear (s.setHs .streaming))

/-! ### Exceptions -/

/-- The five errors of spec R270, with what each records. -/
inductive Exception where
  | handshakeTimeout
  | transportClosed
  | checksumMismatch (raw : List Byte)
  | decodeTooShort (raw : List Byte)
  | unrecognizedCommand
  deriving DecidableEq, Repr

/-- What an error is reported as (the table of spec R270): UnrecognizedCommand as nothing (spec R275; C2). -/
def exceptionReport (k : Exception) : List Output :=
  match k with
  | .handshakeTimeout => [.status .handshakeTimeout]
  | .transportClosed => [.status .transportClosed]
  | .checksumMismatch raw => [.diag .checksumMismatch raw]
  | .decodeTooShort raw => [.diag .decodeTooShort raw]
  | .unrecognizedCommand => []

/-- `raise K(info)` (spec R14): the one entry sequence of an exception. The terminal ones set `hs` and `err`, tear
the session down and emit their STATUS (spec R271, R272); the recoverable ones emit at most one DIAG (spec R273 to
R275, R283). No register saves anything and control goes nowhere (spec R282). -/
def takeException (k : Exception) (s : State) : State :=
  let entered :=
    match k with
    | .handshakeTimeout => teardown ((s.setHs .failed).setErr .handshakeTimeout)
    | .transportClosed =>
      teardown ((s.setHs (if s.hs = HandshakeState.streaming then HandshakeState.streaming else HandshakeState.failed)).setErr .transportClosed)
    | .checksumMismatch _ => s
    | .decodeTooShort _ => s
    | .unrecognizedCommand => s
  entered.emitAll (exceptionReport k)

/-- The return from a recoverable error: immediate, nothing needs re-enabling (spec R284). From a terminal error
there is no return (spec R285). -/
def returnFromRecoverable (s : State) : State := s

/-! ### Selection -/

/-- The reaction of a row whose `when` condition holds; a row that is not selected does nothing (spec R109, R15;
assumption log 6). -/
def whenSelected (c : Bool) (reaction : State → State) (s : State) : Answer := .next (if c then reaction s else s)

/-- An ignored event: taken, no state changes, nothing is emitted (spec R15). -/
def ignored (s : State) : State := s

/-- A held RX: the block takes no step, the byte stays with the transport behind those already waiting there
(spec R15, R218; assumption log 3). -/
def hold (b : Byte) (s : State) : State := s.setHeld (s.held ++ [b])

/-- A pure operation run by itself changes nothing but what it returned (spec R55; assumption log 7). -/
def returnValue (v : Result) (s : State) : Answer := .next (s.setResult v)

end Sys2Proof.Machine
end

