-- ==== Sys2Proof/Machine/Checksum.lean ====
section
/-! DEFINITION. ChecksumValidator (spec R120 to R124): CHECKSUM and VALIDATE. -/

namespace Sys2Proof.Machine

/-- CHECKSUM (spec R120): the bytes added into a 16-bit accumulator, the carry out of bit 15 dropped. -/
def checksum (d : List Byte) : BitVec 16 := d.foldl (fun acc b => acc + b.setWidth 16) 0

/-- VALIDATE (spec R121): all 16 bits equal, the pair read big-endian. -/
def validate (d : List Byte) (hi lo : Byte) : Bool := checksum d == be16 hi lo

/-- The meaning of CHECKSUM run by itself (spec R120). -/
def execChecksum (d : List Byte) (s : State) : Answer := returnValue (.u16 (checksum d)) s

/-- The meaning of VALIDATE run by itself (spec R121). -/
def execValidate (d : List Byte) (hi lo : Byte) (s : State) : Answer := returnValue (.bool (validate d hi lo)) s

end Sys2Proof.Machine
end

