-- ==== Sys2Proof/Machine/Record.lean ====
section
/-! DEFINITION. RecordDecoder (spec R130 to R150): DECODE, its twelve fields and the padding, the denoted value of
the fixed-point fields, and the inverse layout ENCODE, which the spec has as a test device only. -/

namespace Sys2Proof.Machine

/-! ### The fields (spec R134 to R146) -/

/-- `id` (spec R134). -/
def fieldId (r : List Byte) : BitVec 16 := le16 r 0
/-- `sync_id` (spec R135). -/
def fieldSyncId (r : List Byte) : BitVec 16 := le16 r 2
/-- `time_offset_ms` (spec R136). -/
def fieldTimeOffsetMs (r : List Byte) : Int := sint16 (le16 r 4)
/-- `latitude` (spec R138). -/
def fieldLatitude (r : List Byte) : BitVec 64 := le64 r 8
/-- `longitude` (spec R139). -/
def fieldLongitude (r : List Byte) : BitVec 64 := le64 r 16
/-- `heading` (spec R140). -/
def fieldHeading (r : List Byte) : BitVec 32 := le32 r 24
/-- `cov_pos` (spec R141). -/
def fieldCovPos (r : List Byte) : BitVec 32 := le32 r 28
/-- `speed_x`, the raw count (spec R142). -/
def fieldSpeedX (r : List Byte) : Int := sint16 (le16 r 32)
/-- `speed_y`, the raw count (spec R143). -/
def fieldSpeedY (r : List Byte) : Int := sint16 (le16 r 34)
/-- `rot_speed`, the raw count (spec R144). -/
def fieldRotSpeed (r : List Byte) : Int := sint16 (le16 r 36)
/-- `drive_mode` (spec R145). -/
def fieldDriveMode (r : List Byte) : Byte := byteAt r 38
/-- `aux_data_status` (spec R146). -/
def fieldAuxDataStatus (r : List Byte) : Byte := byteAt r 39

/-- DECODE (spec R130): TooShort exactly below 40 bytes, no partial record (spec R131); bytes from offset 40 on are
ignored (spec R150); the padding at 6 and 7 is skipped (spec R137). -/
def decodeRecord (r : List Byte) : Except DecodeError StatusRecord :=
  if r.length < Config.recordLen then .error .tooShort
  else
    .ok
      { id := fieldId r
        syncId := fieldSyncId r
        timeOffsetMs := fieldTimeOffsetMs r
        latitude := fieldLatitude r
        longitude := fieldLongitude r
        heading := fieldHeading r
        covPos := fieldCovPos r
        speedX := fieldSpeedX r
        speedY := fieldSpeedY r
        rotSpeed := fieldRotSpeed r
        driveMode := fieldDriveMode r
        auxDataStatus := fieldAuxDataStatus r }

/-! ### Consumer-side readings (spec R148) -/

/-- The number a fixed-point field denotes: exactly `raw / SPEED_SCALE` (spec R148). -/
def denotedSpeed (raw : Int) : Rat := (raw : Rat) / (Config.speedScale : Rat)

/-- What a consumer renders of it in its own format FP_OUT; the block does not do this (spec R148; log 10). -/
def renderedSpeed (raw : Int) : List Byte := Config.fpOut (denotedSpeed raw)

/-! ### ENCODE, the test device (spec R149) -/

/-- The 16-bit pattern of a signed field. -/
def pattern16 (n : Int) : BitVec 16 := BitVec.ofInt 16 n

/-- The range of a signed field is that of `i16` (spec R10, R13). -/
def isI16 (n : Int) : Bool := -32768 ≤ n && n ≤ 32767

/-- A record whose signed fields are `i16` values (spec R101). -/
def StatusRecord.inRange (x : StatusRecord) : Bool :=
  isI16 x.timeOffsetMs && isI16 x.speedX && isI16 x.speedY && isI16 x.rotSpeed

/-- `ENCODE(rec, p6, p7)` (spec R149): the bytes of each field at its offset, little-endian. -/
def encodeRecord (x : StatusRecord) (p6 p7 : Byte) : List Byte :=
  bytesLe16 x.id ++ bytesLe16 x.syncId ++ bytesLe16 (pattern16 x.timeOffsetMs) ++ [p6, p7] ++
  bytesLe64 x.latitude ++ bytesLe64 x.longitude ++ bytesLe32 x.heading ++ bytesLe32 x.covPos ++
  bytesLe16 (pattern16 x.speedX) ++ bytesLe16 (pattern16 x.speedY) ++ bytesLe16 (pattern16 x.rotSpeed) ++
  [x.driveMode, x.auxDataStatus]

/-! ### The meanings -/

/-- What DECODE returns, as a value (spec R130, R131). -/
def decodeResult (r : List Byte) : Result :=
  match decodeRecord r with
  | .ok x => .record x
  | .error .tooShort => .tooShort

/-- A field of record data too short to hold an image gives no value: no partial record (spec R131). -/
def fieldResult (r : List Byte) (v : Result) : Result := if r.length < Config.recordLen then .tooShort else v

/-- The meaning of DECODE run by itself (spec R130). -/
def execDecode (r : List Byte) (s : State) : Answer := returnValue (decodeResult r) s

/-- REC.id (spec R134). -/
def execRecId (r : List Byte) (s : State) : Answer := returnValue (fieldResult r (.u16 (fieldId r))) s
/-- REC.sync_id (spec R135). -/
def execRecSyncId (r : List Byte) (s : State) : Answer := returnValue (fieldResult r (.u16 (fieldSyncId r))) s
/-- REC.time_offset_ms (spec R136). -/
def execRecTimeOffsetMs (r : List Byte) (s : State) : Answer :=
  returnValue (fieldResult r (.i16 (fieldTimeOffsetMs r))) s
/-- REC.padding: skipped, never output (spec R137). -/
def execRecPadding (r : List Byte) (s : State) : Answer := returnValue (fieldResult r .skipped) s
/-- REC.latitude (spec R138). -/
def execRecLatitude (r : List Byte) (s : State) : Answer := returnValue (fieldResult r (.f64 (fieldLatitude r))) s
/-- REC.longitude (spec R139). -/
def execRecLongitude (r : List Byte) (s : State) : Answer := returnValue (fieldResult r (.f64 (fieldLongitude r))) s
/-- REC.heading (spec R140). -/
def execRecHeading (r : List Byte) (s : State) : Answer := returnValue (fieldResult r (.f32 (fieldHeading r))) s
/-- REC.cov_pos (spec R141). -/
def execRecCovPos (r : List Byte) (s : State) : Answer := returnValue (fieldResult r (.f32 (fieldCovPos r))) s
/-- REC.speed_x (spec R142). -/
def execRecSpeedX (r : List Byte) (s : State) : Answer := returnValue (fieldResult r (.milli (fieldSpeedX r))) s
/-- REC.speed_y (spec R143). -/
def execRecSpeedY (r : List Byte) (s : State) : Answer := returnValue (fieldResult r (.milli (fieldSpeedY r))) s
/-- REC.rot_speed (spec R144). -/
def execRecRotSpeed (r : List Byte) (s : State) : Answer := returnValue (fieldResult r (.milli (fieldRotSpeed r))) s
/-- REC.drive_mode (spec R145). -/
def execRecDriveMode (r : List Byte) (s : State) : Answer := returnValue (fieldResult r (.u8 (fieldDriveMode r))) s
/-- REC.aux_data_status (spec R146). -/
def execRecAuxDataStatus (r : List Byte) (s : State) : Answer :=
  returnValue (fieldResult r (.u8 (fieldAuxDataStatus r))) s

end Sys2Proof.Machine
end

