-- ==== Sys2Proof/Machine/Frame.lean ====
section
/-! DEFINITION. FrameReassembler (spec R160 to R177): the scan, the frame classes, FEED, and RX in Streaming. -/

namespace Sys2Proof.Machine

/-- Where the extraction loop stands on a buffer (steps 1 to 3 of spec R160). -/
inductive Scan where
  /-- step 1: no sentinel (spec R162) -/
  | noSentinel
  /-- step 2 or 3: a sentinel, but its frame is not complete (spec R163, R164) -/
  | waiting
  /-- step 4: a complete frame of `total` bytes at offset `off` (spec R165) -/
  | complete (off total : Nat)
  deriving DecidableEq, Repr

/-- Steps 1 to 3 of the extraction (spec R161 to R164). -/
def scan (buf : List Byte) : Scan :=
  match find Config.sentinel buf with
  | none => .noSentinel
  | some off =>
    if buf.length - off < 2 then .waiting
    else if buf.length - off < 2 + (byteAt buf (off + 1)).toNat then .waiting
    else .complete off (2 + (byteAt buf (off + 1)).toNat)

/-- The whole frame at an offset, sentinel first: the `raw` of step 4 (spec R102, R165). -/
def rawAt (buf : List Byte) (off total : Nat) : List Byte := memRead buf off total

/-- The frame at an offset, classified (spec R165, R166). -/
def frameAt (buf : List Byte) (off total : Nat) : Frame := classify (memRead buf (off + 2) (total - 2))

/-- The frame the next pass of the loop extracts, if there is one. -/
def nextFrame (buf : List Byte) : Option Frame :=
  match scan buf with
  | .noSentinel => none
  | .waiting => none
  | .complete off total => some (frameAt buf off total)

/-- The events of one frame (spec R166 to R169): the checksum is tested before the record length. -/
def frameEvents (f : Frame) (raw : List Byte) : List Output :=
  match f with
  | .short _ => []
  | .unrec _ _ _ _ => exceptionReport .unrecognizedCommand
  | .status recordData hi lo =>
    if validate (Config.cmdStatus :: recordData) hi lo then
      match decodeRecord recordData with
      | .ok x => [.record x]
      | .error .tooShort => exceptionReport (.decodeTooShort raw)
    else exceptionReport (.checksumMismatch raw)

/-- What remains of the buffer, and the events, once the loop can make no further progress (spec R160, R171).
`fuel` bounds the passes; every pass but the last removes at least 2 bytes. -/
def drain (fuel : Nat) (buf : List Byte) : List Byte × List Output :=
  match fuel with
  | 0 => (buf, [])
  | fuel + 1 =>
    match scan buf with
    | .noSentinel => (if Config.bufSoftBound < buf.length then trim buf else buf, [])
    | .waiting => (buf, [])
    | .complete off total =>
      let rest := drain fuel (dropFront (off + total) buf)
      (rest.1, frameEvents (frameAt buf off total) (rawAt buf off total) ++ rest.2)

/-- FEED on a buffer: append, then drain (spec R160). -/
def feedBuf (chunk buf : List Byte) : List Byte × List Output :=
  drain ((append chunk buf).length + 1) (append chunk buf)

/-- FEED on the state: nothing but `buf` and the output trace changes (spec R160, R283). -/
def feed (chunk : List Byte) (s : State) : State :=
  (s.setBuf (feedBuf chunk s.buf).1).emitAll (feedBuf chunk s.buf).2

/-- One pass of the loop on a buffer whose next frame is complete: its events, then step 5 (spec R170). -/
def takeFrame (s : State) : State :=
  match scan s.buf with
  | .noSentinel => s
  | .waiting => s
  | .complete off total =>
    (s.setBuf (dropFront (off + total) s.buf)).emitAll (frameEvents (frameAt s.buf off total) (rawAt s.buf off total))

/-- The reaction to a frame of one class: selected while the session streams and that very frame is the next one in
the buffer (spec R83, R109, R160; assumption log 17). -/
def execFrame (f : Frame) (s : State) : Answer :=
  whenSelected (s.inState .streaming && decide (nextFrame s.buf = some f)) takeFrame s

/-- FRAME.SHORT: removed, no event (spec R169). -/
def execFrameShort (payload : List Byte) (s : State) : Answer := execFrame (.short payload) s

/-- FRAME.STATUS: checksum, then record length, then REC; removed (spec R167). -/
def execFrameStatus (recordData : List Byte) (hi lo : Byte) (s : State) : Answer :=
  execFrame (.status recordData hi lo) s

/-- FRAME.UNREC: removed, no event, the checksum not computed (spec R168; C2). -/
def execFrameUnrec (command : Byte) (recordData : List Byte) (hi lo : Byte) (s : State) : Answer :=
  execFrame (.unrec command recordData hi lo) s

/-- FEED of a whole chunk (spec R160): it runs only in Streaming of a session (spec R107, R160); a chunk that would take
the buffer past BUF_CAP is refused (spec R60). DESIGN CHOICE, assumption log 24: run as an instruction of its own
elsewhere, where the spec gives it no reaction, it answers the same state. -/
def execFeed (chunk : List Byte) (s : State) : Answer :=
  if s.inState .streaming then
    if s.buf.length + chunk.length ≤ Config.bufCap then .next (feed chunk s) else .refused .bufCapacity
  else .next s

/-- RX in Streaming: `FEED([b])` (spec R172). The byte-serial port has no capacity test: it never reaches BUF_CAP
(spec R60, R175). -/
def rxStreaming (b : Byte) (s : State) : State := feed [b] s

/-- RX.Streaming (spec R172). -/
def execRxStreaming (b : Byte) (s : State) : Answer := whenSelected (s.inState .streaming) (rxStreaming b) s

/-! ### The byte sequences FRAME, STATUSFRAME and BADFRAME of spec R107: they build inputs, the block has no encoder -/

/-- The checksum pair of a body, high byte first (spec R51, R107). -/
def checksumPair (v : BitVec 16) : Byte × Byte := (v.extractLsb' 8 8, v.extractLsb' 0 8)

/-- `FRAME(c, d)` (spec R107); it needs `|d| <= 252`. -/
def frameOf (c : Byte) (d : List Byte) : List Byte :=
  [Config.sentinel, BitVec.ofNat 8 (d.length + 3), c] ++ d ++
    [(checksumPair (checksum (c :: d))).1, (checksumPair (checksum (c :: d))).2]

/-- `STATUSFRAME(r)` (spec R107). -/
def statusFrame (r : List Byte) : List Byte := frameOf Config.cmdStatus r

/-- `BADFRAME(c, d, x)` (spec R107): the pair XORed with a non-zero mask. -/
def badFrame (c : Byte) (d : List Byte) (x : BitVec 16) : List Byte :=
  [Config.sentinel, BitVec.ofNat 8 (d.length + 3), c] ++ d ++
    [(checksumPair (checksum (c :: d) ^^^ x)).1, (checksumPair (checksum (c :: d) ^^^ x)).2]

end Sys2Proof.Machine
end

