-- ==== Sys2Proof/Machine/Handshake.lean ====
section
/-! DEFINITION. HandshakeController (spec R200 to R220): the markers, the two written strings, and RX, TICK and
SEND in each state. -/

namespace Sys2Proof.Machine

/-! ### Markers (spec R90, R91) -/

/-- `#NOT_INITIALIZED` completed in DetectingInit: `hs <- ConfigSent; txt <- []`; `timer` is left (spec R202). -/
def matchNotInit (s : State) : State := txtClear (s.setHs .configSent)

/-- `#OK` completed in AwaitingFirstAck: `hs <- RunSent; txt <- []` (spec R208). -/
def matchFirstOk (s : State) : State := txtClear (s.setHs .runSent)

/-- `#OK` completed in AwaitingSecondAck: `hs <- Streaming; txt <- []; emit STATUS(Connected)` (spec R210). -/
def matchSecondOk (s : State) : State := connect s

/-- RX in a text state: push, then the marker test on what is kept (spec R202, R208, R210, R214). -/
def rxText (marker : List Byte) (matched : State → State) (b : Byte) (s : State) : State :=
  let pushed := s.setTxt (txtPush b s.txt)
  if contains pushed.txt marker then matched pushed else pushed

/-- MARK_NOT_INIT: acts where DetectingInit's text holds it; in every other state it is ordinary text (spec R202,
R208; assumption log 17). -/
def execMarkNotInit (s : State) : Answer :=
  whenSelected (s.inState .detectingInit && contains s.txt Config.markNotInit) matchNotInit s

/-- MARK_OK: acts where the text of an acknowledgement state holds it (spec R208, R210; assumption log 17). -/
def execMarkOk (s : State) : Answer :=
  if s.inState .awaitingFirstAck then whenSelected (contains s.txt Config.markOk) matchFirstOk s
  else whenSelected (s.inState .awaitingSecondAck && contains s.txt Config.markOk) matchSecondOk s

/-! ### The written strings (spec R92, R93, R104) -/

/-- CONFIG_STR is written in ConfigSent and nowhere else (spec R104, R204). -/
def execConfigStr (s : State) : Answer := whenSelected (s.inState .configSent) (emit (.tx Config.configStr)) s

/-- RUN_STR is written in RunSent and nowhere else (spec R104, R205). -/
def execRunStr (s : State) : Answer := whenSelected (s.inState .runSent) (emit (.tx Config.runStr)) s

/-! ### SEND (spec R204 to R206) -/

/-- SEND's four effects: the write first, then the acknowledgement window opens (spec R204, R205, R63 e). -/
def sendString (str : List Byte) (next : HandshakeState) (s : State) : State :=
  txtClear (((emit (.tx str) s).setHs next).setTimer 0)

/-- SEND in ConfigSent (spec R204). -/
def sendConfig (s : State) : State := sendString Config.configStr .awaitingFirstAck s

/-- SEND in RunSent (spec R205). -/
def sendRun (s : State) : State := sendString Config.runStr .awaitingSecondAck s

/-- SEND where it is not enabled: no step of the block; nothing changes (spec R206, R15; assumption log 4). -/
def sendNotEnabled (s : State) : State := s

/-- SEND.ConfigSent (spec R204). -/
def execSendConfigSent (s : State) : Answer := whenSelected (s.inState .configSent) sendConfig s
/-- SEND.RunSent (spec R205). -/
def execSendRunSent (s : State) : Answer := whenSelected (s.inState .runSent) sendRun s
/-- SEND.other (spec R206). -/
def execSendOther (s : State) : Answer := whenSelected (!s.sendEnabled) sendNotEnabled s

/-! ### TICK (spec R203, R209, R211, R217) -/

/-- `timer <- timer + 1` (spec R23). -/
def countTick (s : State) : State := s.setTimer (s.timer + 1)

/-- TICK in DetectingInit: at DETECT_WINDOW go to Streaming, which is no error (spec R203). -/
def tickDetecting (s : State) : State :=
  if (countTick s).timer = Config.detectWindow then connect (countTick s) else countTick s

/-- TICK in an acknowledgement state: at ACK_TIMEOUT raise HandshakeTimeout (spec R209, R211). -/
def tickAck (s : State) : State :=
  if (countTick s).timer = Config.ackTimeout then takeException .handshakeTimeout (countTick s) else countTick s

/-- TICK.idle (spec R247). -/
def execTickIdle (s : State) : Answer := whenSelected (!s.active) ignored s
/-- TICK.DetectingInit (spec R203). -/
def execTickDetectingInit (s : State) : Answer := whenSelected (s.inState .detectingInit) tickDetecting s
/-- TICK.ConfigSent (spec R217). -/
def execTickConfigSent (s : State) : Answer := whenSelected (s.inState .configSent) ignored s
/-- TICK.AwaitingFirstAck (spec R209). -/
def execTickAwaitingFirstAck (s : State) : Answer := whenSelected (s.inState .awaitingFirstAck) tickAck s
/-- TICK.RunSent (spec R217). -/
def execTickRunSent (s : State) : Answer := whenSelected (s.inState .runSent) ignored s
/-- TICK.AwaitingSecondAck (spec R211). -/
def execTickAwaitingSecondAck (s : State) : Answer := whenSelected (s.inState .awaitingSecondAck) tickAck s
/-- TICK.Streaming (spec R217). -/
def execTickStreaming (s : State) : Answer := whenSelected (s.inState .streaming) ignored s

/-! ### RX (spec R202, R208, R210, R218, R247) -/

/-- RX in DetectingInit (spec R202). -/
def rxDetecting (b : Byte) (s : State) : State := rxText Config.markNotInit matchNotInit b s
/-- RX in AwaitingFirstAck (spec R208). -/
def rxFirstAck (b : Byte) (s : State) : State := rxText Config.markOk matchFirstOk b s
/-- RX in AwaitingSecondAck (spec R210). -/
def rxSecondAck (b : Byte) (s : State) : State := rxText Config.markOk matchSecondOk b s

/-- RX.idle: the byte is discarded (spec R247). -/
def execRxIdle (_b : Byte) (s : State) : Answer := whenSelected (!s.active) ignored s
/-- RX.DetectingInit (spec R202). -/
def execRxDetectingInit (b : Byte) (s : State) : Answer := whenSelected (s.inState .detectingInit) (rxDetecting b) s
/-- RX.ConfigSent: held (spec R218). -/
def execRxConfigSent (b : Byte) (s : State) : Answer := whenSelected (s.inState .configSent) (hold b) s
/-- RX.AwaitingFirstAck (spec R208). -/
def execRxAwaitingFirstAck (b : Byte) (s : State) : Answer :=
  whenSelected (s.inState .awaitingFirstAck) (rxFirstAck b) s
/-- RX.RunSent: held (spec R218). -/
def execRxRunSent (b : Byte) (s : State) : Answer := whenSelected (s.inState .runSent) (hold b) s
/-- RX.AwaitingSecondAck (spec R210). -/
def execRxAwaitingSecondAck (b : Byte) (s : State) : Answer :=
  whenSelected (s.inState .awaitingSecondAck) (rxSecondAck b) s

end Sys2Proof.Machine
end

