-- ==== Sys2Proof/Machine/Session.lean ====
section
/-! DEFINITION. ConnectionSession (spec R240 to R250) and RESET (spec R310): the input events, routed by `active`
and `hs` as the rules of spec/44_session.md say. -/

namespace Sys2Proof.Machine

/-! ### Reactions -/

/-- RESET (spec R310): the six elements to the values of spec R311; nothing is emitted, and what lies outside the
block stays. -/
def resetBlock (s : State) : State :=
  (((((s.setActive false).setHs .detectingInit).setTimer 0).setErr .none).setTxt []).setBuf []

/-- START with `active = 0` (spec R240). -/
def beginSession (s : State) : State :=
  (((((s.setActive true).setHs .detectingInit).setTimer 0).setErr .none).setTxt []).setBuf []

/-- STOP with `active = 1`: teardown, `hs`, `timer`, `err` unchanged, nothing emitted (spec R241). -/
def stopSession (s : State) : State := teardown s

/-- CLOSED with `active = 1` (spec R242, R272). -/
def closeSession (s : State) : State := takeException .transportClosed s

/-! ### The dispatch lines of START, STOP and CLOSED (spec R108) -/

/-- START.idle (spec R240). -/
def execStartIdle (s : State) : Answer := whenSelected (!s.active) beginSession s
/-- START.active (spec R240). -/
def execStartActive (s : State) : Answer := whenSelected s.active ignored s
/-- STOP.idle (spec R247). -/
def execStopIdle (s : State) : Answer := whenSelected (!s.active) ignored s
/-- STOP.active (spec R241). -/
def execStopActive (s : State) : Answer := whenSelected s.active stopSession s
/-- CLOSED.idle (spec R247). -/
def execClosedIdle (s : State) : Answer := whenSelected (!s.active) ignored s
/-- CLOSED.active (spec R242). -/
def execClosedActive (s : State) : Answer := whenSelected s.active closeSession s

/-! ### The input events (spec R97) -/

/-- RESET, accepted in every state (spec R245, R310). -/
def execReset (s : State) : Answer := .next (resetBlock s)

/-- START (spec R240). -/
def execStart (s : State) : Answer := .next (if s.active then ignored s else beginSession s)

/-- STOP (spec R241, R247). -/
def execStop (s : State) : Answer := .next (if s.active then stopSession s else ignored s)

/-- CLOSED (spec R242, R247). -/
def execClosed (s : State) : Answer := .next (if s.active then closeSession s else ignored s)

/-- TICK, routed by spec R244; `active = 1` with Failed is ignored (spec R108; assumption log 12). -/
def execTick (s : State) : Answer :=
  .next
    (if s.active then
      match s.hs with
      | .detectingInit => tickDetecting s
      | .configSent => ignored s
      | .awaitingFirstAck => tickAck s
      | .runSent => ignored s
      | .awaitingSecondAck => tickAck s
      | .streaming => ignored s
      | .failed => ignored s
    else ignored s)

/-- RX, routed by spec R243; `active = 1` with Failed is ignored (spec R108; assumption log 12). -/
def execRx (b : Byte) (s : State) : Answer :=
  .next
    (if s.active then
      match s.hs with
      | .detectingInit => rxDetecting b s
      | .configSent => hold b s
      | .awaitingFirstAck => rxFirstAck b s
      | .runSent => hold b s
      | .awaitingSecondAck => rxSecondAck b s
      | .streaming => rxStreaming b s
      | .failed => ignored s
    else ignored s)

/-- SEND: the block's own step, enabled only in the write states (spec R204 to R206). -/
def execSend (s : State) : Answer :=
  .next
    (if s.active then
      match s.hs with
      | .detectingInit => sendNotEnabled s
      | .configSent => sendConfig s
      | .awaitingFirstAck => sendNotEnabled s
      | .runSent => sendRun s
      | .awaitingSecondAck => sendNotEnabled s
      | .streaming => sendNotEnabled s
      | .failed => sendNotEnabled s
    else sendNotEnabled s)

/-- Event code 7 is reserved: ignored (spec R98). -/
def execReserved7 (s : State) : Answer := .next (ignored s)

end Sys2Proof.Machine
end

