-- ==== Sys2Proof/Machine/Dispatch.lean ====
section
/-! DEFINITION. The dispatch: one arm per constructor of Instr, each one direct call of a meaning. -/

namespace Sys2Proof.Machine

def exec (i : Instr) (s : State) : Host.Outcome State Fault Refusal :=
  match i with
  | .reset => Sys2Proof.Machine.execReset s
  | .start => Sys2Proof.Machine.execStart s
  | .stop => Sys2Proof.Machine.execStop s
  | .closed => Sys2Proof.Machine.execClosed s
  | .tick => Sys2Proof.Machine.execTick s
  | .rx b => Sys2Proof.Machine.execRx b s
  | .send => Sys2Proof.Machine.execSend s
  | .reserved7 => Sys2Proof.Machine.execReserved7 s
  | .startIdle => Sys2Proof.Machine.execStartIdle s
  | .startActive => Sys2Proof.Machine.execStartActive s
  | .stopIdle => Sys2Proof.Machine.execStopIdle s
  | .stopActive => Sys2Proof.Machine.execStopActive s
  | .closedIdle => Sys2Proof.Machine.execClosedIdle s
  | .closedActive => Sys2Proof.Machine.execClosedActive s
  | .tickIdle => Sys2Proof.Machine.execTickIdle s
  | .tickDetectingInit => Sys2Proof.Machine.execTickDetectingInit s
  | .tickConfigSent => Sys2Proof.Machine.execTickConfigSent s
  | .tickAwaitingFirstAck => Sys2Proof.Machine.execTickAwaitingFirstAck s
  | .tickRunSent => Sys2Proof.Machine.execTickRunSent s
  | .tickAwaitingSecondAck => Sys2Proof.Machine.execTickAwaitingSecondAck s
  | .tickStreaming => Sys2Proof.Machine.execTickStreaming s
  | .rxIdle b => Sys2Proof.Machine.execRxIdle b s
  | .rxDetectingInit b => Sys2Proof.Machine.execRxDetectingInit b s
  | .rxConfigSent b => Sys2Proof.Machine.execRxConfigSent b s
  | .rxAwaitingFirstAck b => Sys2Proof.Machine.execRxAwaitingFirstAck b s
  | .rxRunSent b => Sys2Proof.Machine.execRxRunSent b s
  | .rxAwaitingSecondAck b => Sys2Proof.Machine.execRxAwaitingSecondAck b s
  | .rxStreaming b => Sys2Proof.Machine.execRxStreaming b s
  | .sendConfigSent => Sys2Proof.Machine.execSendConfigSent s
  | .sendRunSent => Sys2Proof.Machine.execSendRunSent s
  | .sendOther => Sys2Proof.Machine.execSendOther s
  | .frameShort p => Sys2Proof.Machine.execFrameShort p s
  | .frameStatus r hi lo => Sys2Proof.Machine.execFrameStatus r hi lo s
  | .frameUnrec c r hi lo => Sys2Proof.Machine.execFrameUnrec c r hi lo s
  | .markNotInit => Sys2Proof.Machine.execMarkNotInit s
  | .markOk => Sys2Proof.Machine.execMarkOk s
  | .configStr => Sys2Proof.Machine.execConfigStr s
  | .runStr => Sys2Proof.Machine.execRunStr s
  | .recId r => Sys2Proof.Machine.execRecId r s
  | .recSyncId r => Sys2Proof.Machine.execRecSyncId r s
  | .recTimeOffsetMs r => Sys2Proof.Machine.execRecTimeOffsetMs r s
  | .recPadding r => Sys2Proof.Machine.execRecPadding r s
  | .recLatitude r => Sys2Proof.Machine.execRecLatitude r s
  | .recLongitude r => Sys2Proof.Machine.execRecLongitude r s
  | .recHeading r => Sys2Proof.Machine.execRecHeading r s
  | .recCovPos r => Sys2Proof.Machine.execRecCovPos r s
  | .recSpeedX r => Sys2Proof.Machine.execRecSpeedX r s
  | .recSpeedY r => Sys2Proof.Machine.execRecSpeedY r s
  | .recRotSpeed r => Sys2Proof.Machine.execRecRotSpeed r s
  | .recDriveMode r => Sys2Proof.Machine.execRecDriveMode r s
  | .recAuxDataStatus r => Sys2Proof.Machine.execRecAuxDataStatus r s
  | .checksum d => Sys2Proof.Machine.execChecksum d s
  | .validate d hi lo => Sys2Proof.Machine.execValidate d hi lo s
  | .decode r => Sys2Proof.Machine.execDecode r s
  | .feed c => Sys2Proof.Machine.execFeed c s

end Sys2Proof.Machine
end

