-- ==== Sys2Proof/Machine/Fetch.lean ====
section
/-! DEFINITION. Which event is taken next, and how a table word is laid where the next step takes it. -/

namespace Sys2Proof.Machine

/-- The next event of the environment's list. -/
def popInbox (s : State) : Option (EventWord × State) :=
  match s.inbox with
  | [] => none
  | w :: ws => some (w, s.setInbox ws)

/-- The event taken next. A byte that was held is delivered as RX as soon as RX is no longer held, before anything
later in the list; else the environment's next event is taken (spec R15, R52, R218; assumption log 1, 3). -/
def fetch (s : State) : Option (EventWord × State) :=
  if s.rxHeld then popInbox s
  else
    match s.held with
    | [] => popInbox s
    | b :: bs => some (rxWord b, s.setHeld bs)

/-- `w` becomes the event taken next. -/
def present (w : EventWord) (s : State) : State := (s.setHeld []).setInbox (w :: s.inbox)

/-- A session in state `h`. -/
def inSession (h : HandshakeState) (s : State) : State := (s.setActive true).setHs h

/-- All bytes but the last stand in the memory that `store` writes; the last is the RX taken next. -/
def presentBytes (store : List Byte → State → State) (bs : List Byte) (s : State) : State :=
  present (rxWord (bs.getLastD 0)) (store bs.dropLast s)

/-- A state in which the next step runs an encoded form (assumption log 16): an event is presented; a dispatch word
sets `active` and `hs` to what it names and presents its event; a frame or marker stands in its memory but for its
last byte, which is presented, in the state that reads it; a written string is due and SEND is presented. -/
def place (ws : Words) (s : State) : State :=
  match ws with
  | .event w => present w s
  | .dispatch w =>
    present (w.extractLsb' 0 11)
      ((s.setActive (w.getLsbD 14)).setHs ((hsOfCode (w.extractLsb' 11 3)).getD s.hs))
  | .frame bs => presentBytes State.setBuf bs (inSession .streaming s)
  | .marker bs =>
    if bs = Config.markNotInit then presentBytes State.setTxt bs (inSession .detectingInit s)
    else presentBytes State.setTxt bs (inSession .awaitingFirstAck s)
  | .txString bs =>
    if bs = Config.configStr then present (eventWord 6 0) (inSession .configSent s)
    else present (eventWord 6 0) (inSession .runSent s)
  | .recordField _ _ _ => s

end Sys2Proof.Machine
end

