-- ==== Sys2Proof/Machine/Step.lean ====
section
/-! DEFINITION. One step: the event taken next, decoded and run. -/

namespace Sys2Proof.Machine

/-- One step (spec R7, R18). With nothing to take the block waits, and nothing changes (spec R279, R314; log 5). -/
def step (s : State) : Host.Outcome State Fault Refusal :=
  match fetch s with
  | none => .next s
  | some (w, s') => exec (decodeEvent w) s'

/-- The state `s` with the instruction of a table word laid where the next step takes it (log 16, 20). -/
def State.withFetchWord (s : State) (nbits w : Nat) : State :=
  match tableWords nbits w with
  | none => s
  | some ws => place ws s

end Sys2Proof.Machine
end

