-- ==== Sys2Proof/Safety.lean ====
section
/-! DEFINITION. The terms in which claims about the machine are made: the invariants of spec R33, the extraction
loop of spec R160 as a relation without fuel, runs of instructions, and how two buffers may differ (spec R173). -/

namespace Sys2Proof.Machine

/-- Noise before the first sentinel is bounded: with the byte-serial port it is a buffer that was sentinel-free
before (spec R175). -/
def NoiseBounded (buf : List Byte) : Prop :=
  ∀ off, find Config.sentinel buf = some off → off ≤ Config.bufSoftBound

/-- The invariants of every reachable state: spec R33 (i) to (viii), the bound of `timer` of spec R23, and the noise
bound behind spec R175. -/
structure Inv (s : State) : Prop where
  /-- R33 (i) -/
  txt_window : s.txt.length ≤ Config.textWindow
  /-- R33 (ii) -/
  txt_only_text : s.txt ≠ [] → s.active = true ∧ isTextState s.hs = true
  /-- R33 (iii) -/
  buf_only_streaming : s.buf ≠ [] → s.active = true ∧ s.hs = .streaming
  /-- R33 (iv) -/
  buf_drained : drained s.buf = true
  /-- R33 (v) -/
  no_marker : ∀ m, awaitedMarker s.hs = some m → ¬ m <:+: s.txt
  /-- R33 (vi) -/
  timer_window : s.active = true → ∀ w, tickWindow s.hs = some w → s.timer.toNat < w.toNat
  /-- R33 (vii) -/
  failed_idle : s.hs = .failed → s.active = false
  /-- R33 (viii) -/
  err_none : s.active = true → s.err = .none
  /-- R23: `timer` never exceeds DETECT_WINDOW -/
  timer_bound : s.timer.toNat ≤ Config.detectWindow.toNat
  /-- R175 -/
  noise : NoiseBounded s.buf

/-- The extraction loop of spec R160, one constructor for each way a pass can go: `Drains buf events rest`. -/
inductive Drains : List Byte → List Output → List Byte → Prop where
  /-- step 1, no sentinel, within the soft bound (spec R162) -/
  | quiet {buf} : find Config.sentinel buf = none → buf.length ≤ Config.bufSoftBound → Drains buf [] buf
  /-- step 1, no sentinel, past the soft bound: the newest BUF_TRIM_KEEP bytes stay (spec R162) -/
  | trimmed {buf} : find Config.sentinel buf = none → Config.bufSoftBound < buf.length →
      Drains buf [] (buf.drop (buf.length - Config.bufTrimKeep))
  /-- step 2: the sentinel is the last byte (spec R163) -/
  | lengthMissing {buf off} : find Config.sentinel buf = some off → buf.length - off < 2 → Drains buf [] buf
  /-- step 3: fewer than `total` bytes from the sentinel on (spec R164) -/
  | incomplete {buf off} : find Config.sentinel buf = some off → 2 ≤ buf.length - off →
      buf.length - off < 2 + (byteAt buf (off + 1)).toNat → Drains buf [] buf
  /-- steps 4 and 5: the frame is classified, its event emitted, noise and frame removed; again (spec R165, R170) -/
  | extract {buf off events rest} : find Config.sentinel buf = some off → 2 ≤ buf.length - off →
      2 + (byteAt buf (off + 1)).toNat ≤ buf.length - off →
      Drains (buf.drop (off + (2 + (byteAt buf (off + 1)).toNat))) events rest →
      Drains buf
        (frameEvents (classify (slice (off + 2) (off + 2 + (byteAt buf (off + 1)).toNat) buf))
          (slice off (off + (2 + (byteAt buf (off + 1)).toNat)) buf) ++ events) rest

/-- Two buffers that differ in noise only (spec R173): equal from their first sentinel on, or both without a
sentinel and one the tail of the other. -/
def SameButNoise (a b : List Byte) : Prop :=
  (∃ i j, find Config.sentinel a = some i ∧ find Config.sentinel b = some j ∧ a.drop i = b.drop j) ∨
  (find Config.sentinel a = none ∧ find Config.sentinel b = none ∧ (a <:+ b ∨ b <:+ a))

/-- The instructions of a list one after the other, stopping at the first stop. -/
def runInstrs (is : List Instr) (s : State) : Answer :=
  match is with
  | [] => .next s
  | i :: rest =>
    match exec i s with
    | .next t => runInstrs rest t
    | .fault r => .fault r
    | .refused r => .refused r

/-- The sum of the bytes as numbers. -/
def byteSum (d : List Byte) : Nat := (d.map BitVec.toNat).sum

/-- The number of a little-endian byte sequence (spec R12, R50). -/
def leNat (bs : List Byte) : Nat :=
  match bs with
  | [] => 0
  | b :: rest => b.toNat + 256 * leNat rest

/-- The integer of a two's-complement number of 16 bits (spec R13). -/
def signed16 (n : Nat) : Int := if n < 32768 then n else (n : Int) - 65536

/-- The error codes among the STATUS events (spec R103). -/
def isErrorStatus (o : Output) : Bool :=
  match o with
  | .tx _ => false
  | .record _ => false
  | .diag _ _ => false
  | .status .connected => false
  | .status .handshakeTimeout => true
  | .status .transportClosed => true

end Sys2Proof.Machine
end

