-- ==== Sys2Proof/Certificates/Slice0/Obligations.lean ====
section
/-! DEFINITION. The statements about the machine, one def Obligations.<Name> : Prop each; OBLIGATIONS.json says
which rule of spec/ each formalises. Where a statement names an input event and a dispatch line together, both have
the same effect in the states the line is for. -/

open Sys2Proof Sys2Proof.Machine

/-! ### Reset and the session -/

/-- R310: RESET, accepted in every state, sets the six elements and emits nothing. -/
def Obligations.ResetSetsTheSixElements : Prop :=
  ∀ s : State, exec .reset s = .next { s with
    active := false, hs := .detectingInit, timer := 0, err := .none, txt := [], buf := [] }

/-- R311: the reset values of the six elements, and (d): RESET then START equals START from any idle state. -/
def Obligations.ResetValuesAndStartAfterReset : Prop :=
  State.reset.active = false ∧ State.reset.hs = .detectingInit ∧ State.reset.timer = 0 ∧
  State.reset.err = .none ∧ State.reset.txt = [] ∧ State.reset.buf = [] ∧
  ∀ s t : State, s.active = false → exec .reset s = .next t → exec .start t = exec .start s

/-- R240: START begins a session where there is none and is ignored where there is one. -/
def Obligations.StartBeginsASessionOrIsIgnored : Prop :=
  ∀ s : State,
    (s.active = false → ∀ i : Instr, i = .start ∨ i = .startIdle → exec i s = .next { s with
      active := true, hs := .detectingInit, timer := 0, err := .none, txt := [], buf := [] }) ∧
    (s.active = true → ∀ i : Instr, i = .start ∨ i = .startActive → exec i s = .next s)

/-- R241: STOP tears the session down, leaves `hs`, `timer` and `err`, emits nothing; ignored where there is none. -/
def Obligations.StopTearsDownSilently : Prop :=
  ∀ s : State,
    (s.active = true → ∀ i : Instr, i = .stop ∨ i = .stopActive →
      exec i s = .next { s with active := false, txt := [], buf := [] }) ∧
    (s.active = false → ∀ i : Instr, i = .stop ∨ i = .stopIdle → exec i s = .next s)

/-- R242, R272: CLOSED raises TransportClosed: `hs` Failed unless Streaming, `err`, teardown, one STATUS; ignored
where there is no session. -/
def Obligations.ClosedRaisesTransportClosed : Prop :=
  ∀ s : State,
    (s.active = true → ∀ i : Instr, i = .closed ∨ i = .closedActive → exec i s = .next { s with
      active := false, hs := (if s.hs = .streaming then .streaming else .failed), err := .transportClosed,
      txt := [], buf := [], out := s.out ++ [.status .transportClosed] }) ∧
    (s.active = false → ∀ i : Instr, i = .closed ∨ i = .closedIdle → exec i s = .next s)

/-- R247, with the model's reading of "not enabled" as nothing changed (log 4): RX, TICK, STOP, CLOSED and SEND
change nothing while no session exists. -/
def Obligations.IdleEventsChangeNothing : Prop :=
  ∀ (s : State) (b : Byte), s.active = false →
    ∀ i : Instr, i ∈ [Instr.rx b, .rxIdle b, .tick, .tickIdle, .stop, .stopIdle, .closed, .closedIdle, .send,
      .sendOther] → exec i s = .next s

/-! ### The handshake -/

/-- R204, R205: SEND in a write state writes that state's string, and opens the acknowledgement window after it. -/
def Obligations.SendWritesThePendingString : Prop :=
  ∀ s : State, s.active = true →
    (s.hs = .configSent → ∀ i : Instr, i = .send ∨ i = .sendConfigSent → exec i s = .next { s with
      out := s.out ++ [.tx Config.configStr], hs := .awaitingFirstAck, timer := 0, txt := [] }) ∧
    (s.hs = .runSent → ∀ i : Instr, i = .send ∨ i = .sendRunSent → exec i s = .next { s with
      out := s.out ++ [.tx Config.runStr], hs := .awaitingSecondAck, timer := 0, txt := [] })

/-- R206 with the model's reading of "no step" as nothing changed (log 4): where no write is pending SEND changes
nothing. -/
def Obligations.SendElsewhereChangesNothing : Prop :=
  ∀ s : State, ¬ (s.active = true ∧ (s.hs = .configSent ∨ s.hs = .runSent)) →
    ∀ i : Instr, i = .send ∨ i = .sendOther → exec i s = .next s

/-- R218 with the model's place for the bytes that stay in the transport (log 3): RX in a write state changes nothing
of the block and emits nothing; the byte waits behind those already waiting. -/
def Obligations.RxInWriteStateIsHeld : Prop :=
  ∀ (s : State) (b : Byte), s.active = true →
    (s.hs = .configSent → ∀ i : Instr, i = .rx b ∨ i = .rxConfigSent b →
      exec i s = .next { s with held := s.held ++ [b] }) ∧
    (s.hs = .runSent → ∀ i : Instr, i = .rx b ∨ i = .rxRunSent b →
      exec i s = .next { s with held := s.held ++ [b] })

/-- R202: RX in DetectingInit pushes the byte and goes to ConfigSent when the text holds `#NOT_INITIALIZED`. -/
def Obligations.RxInDetectingInit : Prop :=
  ∀ (s : State) (b : Byte), s.active = true → s.hs = .detectingInit →
    ∀ i : Instr, i = .rx b ∨ i = .rxDetectingInit b →
      (Config.markNotInit <:+: (s.txt ++ [b]).drop (s.txt.length + 1 - Config.textWindow) →
        exec i s = .next { s with hs := .configSent, txt := [] }) ∧
      (¬ Config.markNotInit <:+: (s.txt ++ [b]).drop (s.txt.length + 1 - Config.textWindow) →
        exec i s = .next { s with txt := (s.txt ++ [b]).drop (s.txt.length + 1 - Config.textWindow) })

/-- R208: RX in AwaitingFirstAck pushes the byte and goes to RunSent when the text holds `#OK`. -/
def Obligations.RxInAwaitingFirstAck : Prop :=
  ∀ (s : State) (b : Byte), s.active = true → s.hs = .awaitingFirstAck →
    ∀ i : Instr, i = .rx b ∨ i = .rxAwaitingFirstAck b →
      (Config.markOk <:+: (s.txt ++ [b]).drop (s.txt.length + 1 - Config.textWindow) →
        exec i s = .next { s with hs := .runSent, txt := [] }) ∧
      (¬ Config.markOk <:+: (s.txt ++ [b]).drop (s.txt.length + 1 - Config.textWindow) →
        exec i s = .next { s with txt := (s.txt ++ [b]).drop (s.txt.length + 1 - Config.textWindow) })

/-- R210: RX in AwaitingSecondAck pushes the byte and goes to Streaming, Connected, when the text holds `#OK`. -/
def Obligations.RxInAwaitingSecondAck : Prop :=
  ∀ (s : State) (b : Byte), s.active = true → s.hs = .awaitingSecondAck →
    ∀ i : Instr, i = .rx b ∨ i = .rxAwaitingSecondAck b →
      (Config.markOk <:+: (s.txt ++ [b]).drop (s.txt.length + 1 - Config.textWindow) →
        exec i s = .next { s with hs := .streaming, txt := [], out := s.out ++ [.status .connected] }) ∧
      (¬ Config.markOk <:+: (s.txt ++ [b]).drop (s.txt.length + 1 - Config.textWindow) →
        exec i s = .next { s with txt := (s.txt ++ [b]).drop (s.txt.length + 1 - Config.textWindow) })

/-- R203: TICK in DetectingInit counts, and at DETECT_WINDOW goes to Streaming, Connected. -/
def Obligations.TickInDetectingInit : Prop :=
  ∀ s : State, s.active = true → s.hs = .detectingInit → ∀ i : Instr, i = .tick ∨ i = .tickDetectingInit →
    (s.timer + 1 = Config.detectWindow → exec i s = .next { s with
      timer := Config.detectWindow, hs := .streaming, txt := [], out := s.out ++ [.status .connected] }) ∧
    (s.timer + 1 ≠ Config.detectWindow → exec i s = .next { s with timer := s.timer + 1 })

/-- R209, R211, R271: TICK in an acknowledgement state counts, and at ACK_TIMEOUT raises HandshakeTimeout: `hs`
Failed, `err`, teardown, one STATUS. -/
def Obligations.TickInAcknowledgementStates : Prop :=
  ∀ s : State, s.active = true → ∀ i : Instr,
    (s.hs = .awaitingFirstAck ∧ (i = .tick ∨ i = .tickAwaitingFirstAck)) ∨
    (s.hs = .awaitingSecondAck ∧ (i = .tick ∨ i = .tickAwaitingSecondAck)) →
    (s.timer + 1 = Config.ackTimeout → exec i s = .next { s with
      timer := Config.ackTimeout, hs := .failed, err := .handshakeTimeout, active := false, txt := [], buf := [],
      out := s.out ++ [.status .handshakeTimeout] }) ∧
    (s.timer + 1 ≠ Config.ackTimeout → exec i s = .next { s with timer := s.timer + 1 })

/-- R217 and the `otherwise` of R244: TICK outside the text states is ignored. R217 says it of Failed with no session;
that it is ignored in Failed with `active = 1` too, which no run reaches, is the model's choice (log 12). -/
def Obligations.TickOutsideTextStatesIsIgnored : Prop :=
  ∀ s : State,
    ((s.hs = .configSent ∨ s.hs = .runSent ∨ s.hs = .streaming ∨ s.hs = .failed) → exec .tick s = .next s) ∧
    (s.active = true → s.hs = .configSent → exec .tickConfigSent s = .next s) ∧
    (s.active = true → s.hs = .runSent → exec .tickRunSent s = .next s) ∧
    (s.active = true → s.hs = .streaming → exec .tickStreaming s = .next s)

/-- R91: in a state that meets the invariants, RX completes the awaited marker exactly when the text with the new
byte ends in it: the state is left then and only then, and with its text emptied. -/
def Obligations.MarkerIsSeenByTheByteThatEndsIt : Prop :=
  ∀ (s t : State) (b : Byte) (m : List Byte), Inv s → s.active = true → awaitedMarker s.hs = some m →
    exec (.rx b) s = .next t → ((t.hs ≠ s.hs ↔ m <:+ s.txt ++ [b]) ∧ (t.hs ≠ s.hs → t.txt = []))

/-- Derived from R202, R208, R210 (log 17): a marker that stands in the text of the state waiting for it acts as
those rules say, and in every other state, or where it does not stand there, nothing changes. -/
def Obligations.MarkersActWhereAwaited : Prop :=
  ∀ s : State,
    (s.active = true → s.hs = .detectingInit → Config.markNotInit <:+: s.txt →
      exec .markNotInit s = .next { s with hs := .configSent, txt := [] }) ∧
    (¬ (s.active = true ∧ s.hs = .detectingInit ∧ Config.markNotInit <:+: s.txt) → exec .markNotInit s = .next s) ∧
    (s.active = true → s.hs = .awaitingFirstAck → Config.markOk <:+: s.txt →
      exec .markOk s = .next { s with hs := .runSent, txt := [] }) ∧
    (s.active = true → s.hs = .awaitingSecondAck → Config.markOk <:+: s.txt →
      exec .markOk s = .next { s with hs := .streaming, txt := [], out := s.out ++ [.status .connected] }) ∧
    (¬ (s.active = true ∧ (s.hs = .awaitingFirstAck ∨ s.hs = .awaitingSecondAck) ∧ Config.markOk <:+: s.txt) →
      exec .markOk s = .next s)

/-- Derived from R104, R204, R205 (log 17): CONFIG_STR is written in ConfigSent and RUN_STR in RunSent of a session,
whole, and nothing is written elsewhere. -/
def Obligations.StringsAreWrittenWhereDue : Prop :=
  ∀ s : State,
    (s.active = true → s.hs = .configSent → exec .configStr s = .next { s with out := s.out ++ [.tx
      [0x23, 0x43, 0x4F, 0x4E, 0x46, 0x49, 0x47, 0x2C, 0x30, 0x2C, 0x32, 0x34, 0x30, 0x32, 0x2E, 0x35, 0x2C, 0x35,
       0x2C, 0x30, 0x2C, 0x4C, 0x4F, 0x52, 0x41, 0x2C, 0x35, 0x2C, 0x31, 0x36, 0x30, 0x30, 0x2C, 0x35, 0x2C, 0x31,
       0x36, 0x0A]] }) ∧
    (¬ (s.active = true ∧ s.hs = .configSent) → exec .configStr s = .next s) ∧
    (s.active = true → s.hs = .runSent →
      exec .runStr s = .next { s with out := s.out ++ [.tx [0x23, 0x52, 0x55, 0x4E, 0x0A]] }) ∧
    (¬ (s.active = true ∧ s.hs = .runSent) → exec .runStr s = .next s)

/-- From R203, R209, R211 and R329: in a text state with window `w` and `timer` below it, fewer TICKs than remain
only count, and exactly as many end the wait: Streaming from DetectingInit, Failed with the session torn down from
the others. -/
def Obligations.TicksEndAWaitExactlyAtItsWindow : Prop :=
  ∀ (s : State) (w : Ticks) (n : Nat), s.active = true → tickWindow s.hs = some w → s.timer.toNat < w.toNat →
    (s.timer.toNat + n < w.toNat →
      runInstrs (List.replicate n .tick) s = .next { s with timer := s.timer + BitVec.ofNat 10 n }) ∧
    (s.timer.toNat + n = w.toNat → s.hs = .detectingInit →
      runInstrs (List.replicate n .tick) s = .next { s with
        timer := w, hs := .streaming, txt := [], out := s.out ++ [.status .connected] }) ∧
    (s.timer.toNat + n = w.toNat → s.hs ≠ .detectingInit →
      runInstrs (List.replicate n .tick) s = .next { s with
        timer := w, hs := .failed, err := .handshakeTimeout, active := false, txt := [], buf := [],
        out := s.out ++ [.status .handshakeTimeout] })

/-! ### The reassembler -/

/-- R172: RX in Streaming is FEED of the one byte: the loop of R160 from the buffer with the byte behind it, and,
within BUF_CAP (R60), what FEED of that one byte answers. -/
def Obligations.RxInStreamingIsFeed : Prop :=
  ∀ (s : State) (b : Byte), s.active = true → s.hs = .streaming →
    (∃ events rest, Drains (s.buf ++ [b]) events rest ∧ ∀ i : Instr, i = .rx b ∨ i = .rxStreaming b →
      exec i s = .next { s with buf := rest, out := s.out ++ events }) ∧
    (s.buf.length + 1 ≤ Config.bufCap → exec (.rx b) s = exec (.feed [b]) s)

/-- R160: FEED in Streaming follows the loop from the buffer with the chunk behind it: `buf` becomes what the loop
leaves, the events are appended to the trace, and nothing else changes. -/
def Obligations.FeedFollowsTheExtractionLoop : Prop :=
  ∀ (s : State) (chunk : List Byte), s.active = true → s.hs = .streaming →
    s.buf.length + chunk.length ≤ Config.bufCap →
    ∃ events rest, Drains (s.buf ++ chunk) events rest ∧
      exec (.feed chunk) s = .next { s with buf := rest, out := s.out ++ events }

/-- R60, R9 (log 9): FEED of a chunk that would take the buffer past BUF_CAP is refused by name, and BUF_CAP is at
least 1281. R60 does not say what FEED does outside Streaming of a session: that it answers the same state is the
model's choice (log 24). -/
def Obligations.FeedPastCapacityIsRefused : Prop :=
  1281 ≤ Config.bufCap ∧
  ∀ (s : State) (chunk : List Byte),
    (s.active = true → s.hs = .streaming → Config.bufCap < s.buf.length + chunk.length →
      exec (.feed chunk) s = .refused .bufCapacity) ∧
    (¬ (s.active = true ∧ s.hs = .streaming) → exec (.feed chunk) s = .next s)

/-- R171: when FEED returns, the buffer holds no complete frame, and it has emitted at most one event for every two
bytes. -/
def Obligations.FeedLeavesNoCompleteFrame : Prop :=
  ∀ (buf chunk : List Byte), drained (feedBuf chunk buf).1 = true ∧
    2 * (feedBuf chunk buf).2.length ≤ buf.length + chunk.length

/-- R173: the events of `FEED(a ++ b)` are those of `FEED(a)` then `FEED(b)`, from any buffer, and the two final
buffers differ in noise only. -/
def Obligations.ChunkBoundariesDoNotMatter : Prop :=
  ∀ (buf a b : List Byte),
    (feedBuf (a ++ b) buf).2 = (feedBuf a buf).2 ++ (feedBuf b (feedBuf a buf).1).2 ∧
    SameButNoise (feedBuf (a ++ b) buf).1 (feedBuf b (feedBuf a buf).1).1

/-- R173, R172: from any streaming state whose buffer is drained, a byte sequence taken as single RX events gives the
same trace as one FEED of the whole, and buffers that differ in noise only. -/
def Obligations.ByteSerialEqualsWholeChunk : Prop :=
  ∀ (s : State) (bytes : List Byte), s.active = true → s.hs = .streaming → drained s.buf = true →
    s.buf.length + bytes.length ≤ Config.bufCap →
    ∃ t u, runInstrs (bytes.map .rx) s = .next t ∧ exec (.feed bytes) s = .next u ∧
      t.out = u.out ∧ SameButNoise t.buf u.buf

/-- R174: bytes before the first sentinel never influence any event. -/
def Obligations.NoiseNeverChangesAnEvent : Prop :=
  ∀ (noise buf chunk : List Byte), find Config.sentinel noise = none →
    (feedBuf chunk (noise ++ buf)).2 = (feedBuf chunk buf).2

/-- R175, R332: with byte-serial input, from a state that meets the invariants, the buffer after an RX has at most
1280 bytes, at most 1024 where it has no sentinel, and at most 256 from its sentinel on. -/
def Obligations.OccupancyIsBounded : Prop :=
  ∀ (s t : State) (b : Byte), Inv s → exec (.rx b) s = .next t →
    t.buf.length ≤ 1280 ∧ (find Config.sentinel t.buf = none → t.buf.length ≤ 1024) ∧
    ∀ off, find Config.sentinel t.buf = some off → off ≤ 1024 ∧ t.buf.length - off ≤ 256

/-- R177 (b): the buffer is appended to only at the back and cut only at the front: what FEED leaves is a tail of the
old buffer with the chunk behind it. -/
def Obligations.BufferIsCutOnlyAtTheFront : Prop :=
  ∀ (buf chunk : List Byte), (feedBuf chunk buf).1 <:+ buf ++ chunk

/-- R331, R172: from a streaming state that meets the invariants, one RX extracts at most one frame. Where its byte
completes a frame, of whatever class, the frame ends with that byte, the buffer is empty after it, and exactly that
frame's events are emitted, at most one. Otherwise nothing is emitted and no frame is removed: the buffer has the byte
behind it, but for a trim where it has no sentinel. -/
def Obligations.OneRxEmitsAtMostOneEvent : Prop :=
  ∀ (s : State) (b : Byte), Inv s → s.active = true → s.hs = .streaming →
    ∃ t, exec (.rx b) s = .next t ∧
      (∀ off total, scan (s.buf ++ [b]) = .complete off total →
        off + total = s.buf.length + 1 ∧ t.buf = [] ∧
        t.out = s.out ++ frameEvents (frameAt (s.buf ++ [b]) off total) (rawAt (s.buf ++ [b]) off total) ∧
        (frameEvents (frameAt (s.buf ++ [b]) off total) (rawAt (s.buf ++ [b]) off total)).length ≤ 1) ∧
      ((∀ off total, scan (s.buf ++ [b]) ≠ .complete off total) →
        t.out = s.out ∧ (find Config.sentinel (s.buf ++ [b]) ≠ none → t.buf = s.buf ++ [b]) ∧
        t.buf <:+ s.buf ++ [b])

/-- R167: a FRAME.STATUS frame that is next in the buffer: ChecksumMismatch where the sum of command and record data
is not the pair, else DecodeTooShort below 40 bytes, else one REC; the noise and the frame are removed and nothing
else changes. -/
def Obligations.FrameStatusOutcome : Prop :=
  ∀ (s : State) (noise r rest : List Byte) (hi lo : Byte), s.active = true → s.hs = .streaming →
    find Config.sentinel noise = none → r.length ≤ 252 →
    s.buf = noise ++ (Config.sentinel :: BitVec.ofNat 8 (r.length + 3) :: 1 :: (r ++ [hi, lo])) ++ rest →
    ((1 + byteSum r) % 65536 ≠ hi.toNat * 256 + lo.toNat →
      exec (.frameStatus r hi lo) s = .next { s with buf := rest, out := s.out ++ [.diag .checksumMismatch
        (Config.sentinel :: BitVec.ofNat 8 (r.length + 3) :: 1 :: (r ++ [hi, lo]))] }) ∧
    ((1 + byteSum r) % 65536 = hi.toNat * 256 + lo.toNat → r.length < 40 →
      exec (.frameStatus r hi lo) s = .next { s with buf := rest, out := s.out ++ [.diag .decodeTooShort
        (Config.sentinel :: BitVec.ofNat 8 (r.length + 3) :: 1 :: (r ++ [hi, lo]))] }) ∧
    ((1 + byteSum r) % 65536 = hi.toNat * 256 + lo.toNat → 40 ≤ r.length →
      ∃ x, decodeRecord r = .ok x ∧
        exec (.frameStatus r hi lo) s = .next { s with buf := rest, out := s.out ++ [.record x] })

/-- R168, R169: a FRAME.UNREC or FRAME.SHORT frame that is next in the buffer is removed with the noise before it,
and nothing else changes: no event, whatever its checksum. -/
def Obligations.OtherFramesAreDroppedSilently : Prop :=
  ∀ (s : State) (noise rest : List Byte), s.active = true → s.hs = .streaming →
    find Config.sentinel noise = none →
    (∀ (c hi lo : Byte) (r : List Byte), c ≠ 1 → r.length ≤ 252 →
      s.buf = noise ++ (Config.sentinel :: BitVec.ofNat 8 (r.length + 3) :: c :: (r ++ [hi, lo])) ++ rest →
      exec (.frameUnrec c r hi lo) s = .next { s with buf := rest }) ∧
    (∀ p : List Byte, p.length ≤ 2 →
      s.buf = noise ++ (Config.sentinel :: BitVec.ofNat 8 p.length :: p) ++ rest →
      exec (.frameShort p) s = .next { s with buf := rest })

/-- R83, R166: the classes partition all complete frames, the length tested before the command. -/
def Obligations.FrameClassesPartitionAllFrames : Prop :=
  ∀ payload : List Byte, payload.length ≤ 255 →
    (payload.length < 3 →
      decode (.frame (0xFF :: BitVec.ofNat 8 payload.length :: payload)) = .ok (.frameShort payload)) ∧
    (3 ≤ payload.length → ∃ (c hi lo : Byte) (r : List Byte), payload = c :: (r ++ [hi, lo]) ∧
      (c = 1 → decode (.frame (0xFF :: BitVec.ofNat 8 payload.length :: payload)) = .ok (.frameStatus r hi lo)) ∧
      (c ≠ 1 → decode (.frame (0xFF :: BitVec.ofNat 8 payload.length :: payload)) = .ok (.frameUnrec c r hi lo)))

/-- R320: in a stream of well-formed StatusRecord frames parsed from a true frame start, every 0xFF inside a payload
is covered by the count: one FEED of the whole stream, from a buffer with noise at most, emits exactly the records,
in order, and leaves the buffer empty. -/
def Obligations.GoodStreamGivesItsRecordsInOrder : Prop :=
  ∀ (buf : List Byte) (images : List (List Byte)), find Config.sentinel buf = none → images ≠ [] →
    (∀ r ∈ images, 40 ≤ r.length ∧ r.length ≤ 252) →
    ∃ xs : List StatusRecord, images.map decodeRecord = xs.map .ok ∧
      feedBuf (images.flatMap statusFrame) buf = ([], xs.map .record)

/-! ### The checksum -/

/-- R120: CHECKSUM is the sum of the bytes modulo 65536; it changes nothing but the value returned (log 7). -/
def Obligations.ChecksumIsTheSumModulo65536 : Prop :=
  ∀ (s : State) (d : List Byte),
    exec (.checksum d) s = .next { s with result := .u16 (BitVec.ofNat 16 (byteSum d % 65536)) }

/-- R121: VALIDATE compares all 16 bits of the sum with the big-endian pair; it changes nothing but the value
returned (log 7). -/
def Obligations.ValidateComparesWithTheBigEndianPair : Prop :=
  ∀ (s : State) (d : List Byte) (hi lo : Byte),
    exec (.validate d hi lo) s =
      .next { s with result := .bool (decide (byteSum d % 65536 = hi.toNat * 256 + lo.toNat)) }

/-- R123: concatenation adds, order does not matter, the sum of a frame's body does not wrap, zero bytes add
nothing. -/
def Obligations.ChecksumLaws : Prop :=
  (∀ a b : List Byte, checksum (a ++ b) = checksum a + checksum b) ∧
  (∀ a b : List Byte, a.Perm b → checksum a = checksum b) ∧
  (∀ body : List Byte, body.length ≤ 253 →
    (checksum body).toNat = byteSum body ∧ byteSum body ≤ 64515 ∧ (checksumPair (checksum body)).1.toNat ≤ 0xFC) ∧
  (∀ (d : List Byte) (n : Nat), checksum (d ++ List.replicate n 0) = checksum d)

/-- R124: any change to the checksum pair alone, and any change of a single byte of the body, is detected. -/
def Obligations.ChecksumDetectsOneChange : Prop :=
  (∀ (d : List Byte) (hi lo hi' lo' : Byte), validate d hi lo = true → (hi', lo') ≠ (hi, lo) →
    validate d hi' lo' = false) ∧
  (∀ (a b : List Byte) (x y hi lo : Byte), validate (a ++ [x] ++ b) hi lo = true → x ≠ y →
    validate (a ++ [y] ++ b) hi lo = false)

/-! ### The record decoder -/

/-- R130, R131: DECODE fails with TooShort exactly below 40 bytes, else gives all twelve fields, each from its own
offset, little-endian, the signed ones in two's complement; it changes nothing but the value returned (log 7). -/
def Obligations.DecodeGivesTheTwelveFields : Prop :=
  ∀ (s : State) (r : List Byte),
    (r.length < 40 → exec (.decode r) s = .next { s with result := .tooShort }) ∧
    (40 ≤ r.length → ∃ x : StatusRecord, exec (.decode r) s = .next { s with result := .record x } ∧
      x.id.toNat = leNat (slice 0 2 r) ∧ x.syncId.toNat = leNat (slice 2 4 r) ∧
      x.timeOffsetMs = signed16 (leNat (slice 4 6 r)) ∧
      x.latitude.toNat = leNat (slice 8 16 r) ∧ x.longitude.toNat = leNat (slice 16 24 r) ∧
      x.heading.toNat = leNat (slice 24 28 r) ∧ x.covPos.toNat = leNat (slice 28 32 r) ∧
      x.speedX = signed16 (leNat (slice 32 34 r)) ∧ x.speedY = signed16 (leNat (slice 34 36 r)) ∧
      x.rotSpeed = signed16 (leNat (slice 36 38 r)) ∧
      x.driveMode.toNat = leNat (slice 38 39 r) ∧ x.auxDataStatus.toNat = leNat (slice 39 40 r))

/-- R134 to R137, R142 to R146 (log 7): each one- or two-byte field of record data that holds an image is the
number at its offset, the padding is skipped; nothing but the value returned changes. -/
def Obligations.SmallRecordFields : Prop :=
  ∀ (s : State) (r : List Byte), 40 ≤ r.length →
    exec (.recId r) s = .next { s with result := .u16 (BitVec.ofNat 16 (leNat (slice 0 2 r))) } ∧
    exec (.recSyncId r) s = .next { s with result := .u16 (BitVec.ofNat 16 (leNat (slice 2 4 r))) } ∧
    exec (.recTimeOffsetMs r) s = .next { s with result := .i16 (signed16 (leNat (slice 4 6 r))) } ∧
    exec (.recPadding r) s = .next { s with result := .skipped } ∧
    exec (.recSpeedX r) s = .next { s with result := .milli (signed16 (leNat (slice 32 34 r))) } ∧
    exec (.recSpeedY r) s = .next { s with result := .milli (signed16 (leNat (slice 34 36 r))) } ∧
    exec (.recRotSpeed r) s = .next { s with result := .milli (signed16 (leNat (slice 36 38 r))) } ∧
    exec (.recDriveMode r) s = .next { s with result := .u8 (BitVec.ofNat 8 (leNat (slice 38 39 r))) } ∧
    exec (.recAuxDataStatus r) s = .next { s with result := .u8 (BitVec.ofNat 8 (leNat (slice 39 40 r))) }

/-- R138 to R141, R147 (log 7): each float field of record data that holds an image is its bit pattern, whatever
number it denotes; nothing but the value returned changes. -/
def Obligations.FloatRecordFieldsAreBitPatterns : Prop :=
  ∀ (s : State) (r : List Byte), 40 ≤ r.length →
    exec (.recLatitude r) s = .next { s with result := .f64 (BitVec.ofNat 64 (leNat (slice 8 16 r))) } ∧
    exec (.recLongitude r) s = .next { s with result := .f64 (BitVec.ofNat 64 (leNat (slice 16 24 r))) } ∧
    exec (.recHeading r) s = .next { s with result := .f32 (BitVec.ofNat 32 (leNat (slice 24 28 r))) } ∧
    exec (.recCovPos r) s = .next { s with result := .f32 (BitVec.ofNat 32 (leNat (slice 28 32 r))) }

/-- R131 (log 7): no field comes out of record data shorter than an image. -/
def Obligations.NoFieldOfAShortRecord : Prop :=
  ∀ (s : State) (r : List Byte), r.length < 40 →
    ∀ i ∈ [Instr.recId r, .recSyncId r, .recTimeOffsetMs r, .recPadding r, .recLatitude r, .recLongitude r,
      .recHeading r, .recCovPos r, .recSpeedX r, .recSpeedY r, .recRotSpeed r, .recDriveMode r,
      .recAuxDataStatus r], exec i s = .next { s with result := .tooShort }

/-- R150, R137, R54: bytes from offset 40 on and the two padding bytes do not reach the record. -/
def Obligations.SurplusAndPaddingDoNotMatter : Prop :=
  (∀ r extra : List Byte, 40 ≤ r.length → decodeRecord (r ++ extra) = decodeRecord r) ∧
  (∀ (a b : List Byte) (p q p' q' : Byte), a.length = 6 →
    decodeRecord (a ++ [p, q] ++ b) = decodeRecord (a ++ [p', q'] ++ b))

/-- R149: ENCODE and DECODE are inverse, exactly, for all twelve fields and any padding. -/
def Obligations.EncodeAndDecodeRoundTrip : Prop :=
  (∀ (x : StatusRecord) (p q : Byte), x.inRange = true → decodeRecord (encodeRecord x p q) = .ok x) ∧
  (∀ r : List Byte, 40 ≤ r.length → ∃ x, decodeRecord r = .ok x ∧ x.inRange = true ∧
    encodeRecord x (byteAt r 6) (byteAt r 7) = r.take 40)

/-- R148: the raw count of a fixed-point field denotes exactly raw / 1000, between -32.768 and 32.767. -/
def Obligations.FixedPointFieldsDenoteThousandths : Prop :=
  ∀ (r : List Byte) (x : StatusRecord), decodeRecord r = .ok x →
    ∀ raw ∈ [x.speedX, x.speedY, x.rotSpeed],
      denotedSpeed raw * 1000 = raw ∧ (-32768 : Rat) / 1000 ≤ denotedSpeed raw ∧ denotedSpeed raw ≤ 32767 / 1000

/-! ### Encodings -/

/-- From R80 to R99 and R108: decoding the encoding of any well-formed instruction gives it back, with every operand;
only the four internal operations have no encoding. -/
def Obligations.DecodeOfEncodeIsTheInstruction : Prop :=
  ∀ i : Instr, WellFormed i = true →
    (∀ ws, encode i = some ws → decode ws = .ok i) ∧
    (encode i = none ↔ (∃ d, i = .checksum d) ∨ (∃ d hi lo, i = .validate d hi lo) ∨ (∃ r, i = .decode r) ∨
      ∃ c, i = .feed c)

/-- The decoder yields well-formed instructions only, from any words and bytes. -/
def Obligations.DecodeYieldsWellFormed : Prop :=
  ∀ (ws : Words) (i : Instr), decode ws = .ok i → WellFormed i = true

/-- From R80: where the decoder reads a frame at the front of a byte sequence, the frame's own bytes followed by what
it leaves are that sequence: no byte is dropped or changed. -/
def Obligations.DecodedFrameKeepsEveryByte : Prop :=
  ∀ (bs rest : List Byte) (f : Frame), decodeFrame bs = .ok (f, rest) → f.bytes ++ rest = bs

/-- R96, R97, R98: each event code, in bits 10:8, is its event, bits 7:0 are the byte of RX and are ignored by every
other event, and event code 7 changes nothing. -/
def Obligations.EventCodesAreTheTable : Prop :=
  (∀ b : Byte,
    decodeEvent (eventWord 0 b) = .reset ∧ decodeEvent (eventWord 1 b) = .start ∧
    decodeEvent (eventWord 2 b) = .stop ∧ decodeEvent (eventWord 3 b) = .closed ∧
    decodeEvent (eventWord 4 b) = .tick ∧ decodeEvent (eventWord 5 b) = .rx b ∧
    decodeEvent (eventWord 6 b) = .send ∧ decodeEvent (eventWord 7 b) = .reserved7) ∧
  ∀ s : State, exec .reserved7 s = .next s

/-- R108: the line the dispatch word of a state and an event selects is the block's reaction: it answers what the
event answers. Only RX and TICK with `active = 1` and Failed have no line, and there the model ignores them (log 12,
the spec's suggestion). -/
def Obligations.SelectedLineIsTheReaction : Prop :=
  ∀ (s : State) (w : EventWord),
    (¬ (s.active = true ∧ s.hs = .failed ∧ (decodeEvent w = .tick ∨ ∃ b, decodeEvent w = .rx b)) →
      ∃ i, decodeDispatch (dispatchWord s w) = .ok i ∧ exec i s = exec (decodeEvent w) s) ∧
    (s.active = true → s.hs = .failed → (decodeEvent w = .tick ∨ ∃ b, decodeEvent w = .rx b) →
      decodeDispatch (dispatchWord s w) = .error .noDispatchRow ∧ exec (decodeEvent w) s = .next s)

/-- Words written out from the tables of R97, R108 and R83: one of each format decodes to what it stands for. -/
def Obligations.SampleWordsDecode : Prop :=
  decode (.event 0x5FF) = .ok (.rx 0xFF) ∧ decode (.event 0x600) = .ok .send ∧
  decode (.dispatch 0x6DFF) = .ok (.rxStreaming 0xFF) ∧ decode (.dispatch 0x5E00) = .ok .sendRunSent ∧
  decode (.dispatch 0x3400) = .ok .tickIdle ∧ decode (.dispatch 0x4600) = .ok .sendOther ∧
  decode (.frame [0xFF, 0x03, 0x01, 0x00, 0x01]) = .ok (.frameStatus [] 0x00 0x01) ∧
  decode (.frame [0xFF, 0x02, 0x01, 0x00]) = .ok (.frameShort [0x01, 0x00]) ∧
  decode (.frame [0xFF, 0x05, 0x02, 0xDE, 0xAD, 0x01, 0x8D]) = .ok (.frameUnrec 0x02 [0xDE, 0xAD] 0x01 0x8D) ∧
  decode (.marker [0x23, 0x4F, 0x4B]) = .ok .markOk ∧
  decode (.txString [0x23, 0x52, 0x55, 0x4E, 0x0A]) = .ok .runStr

/-! ### The whole machine -/

/-- A step takes one event and runs what it decodes to (log 1, 3, 5): a byte that was held as soon as RX is not held,
else the next event of the list; with nothing to take, nothing changes. -/
def Obligations.StepRunsTheDecodedEvent : Prop :=
  ∀ s : State,
    (∀ (b : Byte) (bs : List Byte), ¬ (s.active = true ∧ (s.hs = .configSent ∨ s.hs = .runSent)) →
      s.held = b :: bs → step s = exec (.rx b) { s with held := bs }) ∧
    (((s.active = true ∧ (s.hs = .configSent ∨ s.hs = .runSent)) ∨ s.held = []) →
      (∀ (w : EventWord) (ws : List EventWord), s.inbox = w :: ws →
        step s = exec (decodeEvent w) { s with inbox := ws }) ∧
      (s.inbox = [] → step s = .next s))

/-- From R7, R85, R270: no step faults or is refused. That a step with a held RX, a SEND not enabled or no event to come
answers a next state too, where R15 and R206 say the block has no step, is the model's choice (log 3, 4, 5). -/
def Obligations.EveryStepAnswersANextState : Prop :=
  ∀ s : State, ∃ t, step s = .next t

/-- The invariants hold at reset. -/
def Obligations.InvariantsHoldAtReset : Prop := Inv State.reset

/-- R33, R23, R175: every step keeps the invariants. -/
def Obligations.EveryStepKeepsTheInvariants : Prop :=
  ∀ s t : State, Inv s → step s = .next t → Inv t

/-- R216: every change of `hs` an event makes is a row of the transition table. -/
def Obligations.HandshakeChangesOnlyByTheTable : Prop :=
  ∀ (s t : State) (w : EventWord), exec (decodeEvent w) s = .next t → t.hs ≠ s.hs →
    (s.active = false ∧ decodeEvent w = .start ∧ t.hs = .detectingInit) ∨
    (s.active = true ∧ s.hs = .detectingInit ∧
      (∃ b, decodeEvent w = .rx b ∧ Config.markNotInit <:+: txtPush b s.txt) ∧ t.hs = .configSent) ∨
    (s.active = true ∧ s.hs = .detectingInit ∧ decodeEvent w = .tick ∧ t.timer = Config.detectWindow ∧
      t.hs = .streaming) ∨
    (s.active = true ∧ s.hs = .configSent ∧ decodeEvent w = .send ∧ t.hs = .awaitingFirstAck) ∨
    (s.active = true ∧ s.hs = .awaitingFirstAck ∧
      (∃ b, decodeEvent w = .rx b ∧ Config.markOk <:+: txtPush b s.txt) ∧ t.hs = .runSent) ∨
    (s.active = true ∧ s.hs = .awaitingFirstAck ∧ decodeEvent w = .tick ∧ t.timer = Config.ackTimeout ∧
      t.hs = .failed) ∨
    (s.active = true ∧ s.hs = .runSent ∧ decodeEvent w = .send ∧ t.hs = .awaitingSecondAck) ∨
    (s.active = true ∧ s.hs = .awaitingSecondAck ∧
      (∃ b, decodeEvent w = .rx b ∧ Config.markOk <:+: txtPush b s.txt) ∧ t.hs = .streaming) ∨
    (s.active = true ∧ s.hs = .awaitingSecondAck ∧ decodeEvent w = .tick ∧ t.timer = Config.ackTimeout ∧
      t.hs = .failed) ∨
    (s.active = true ∧ s.hs ≠ .streaming ∧ decodeEvent w = .closed ∧ t.hs = .failed) ∨
    (decodeEvent w = .reset ∧ t.hs = .detectingInit)

/-- R20 to R26: which events write which element: each of the six changes only by the events of its row of the table of
R20, `timer` only to 0 or by one, and `err` only as R24 says: HandshakeTimeout by the TICK that expires an
acknowledgement window. -/
def Obligations.EachElementHasItsWriters : Prop :=
  ∀ (s t : State) (w : EventWord), exec (decodeEvent w) s = .next t →
    (t.active ≠ s.active → decodeEvent w ∈ [Instr.reset, .start, .stop, .closed, .tick]) ∧
    (t.hs ≠ s.hs → decodeEvent w ∈ [Instr.reset, .start, .tick, .send, .closed] ∨ ∃ b, decodeEvent w = .rx b) ∧
    (t.timer ≠ s.timer → (t.timer = 0 ∧ decodeEvent w ∈ [Instr.reset, .start, .send]) ∨
      (t.timer = s.timer + 1 ∧ decodeEvent w = .tick ∧ s.active = true ∧ isTextState s.hs = true)) ∧
    (t.err ≠ s.err → (t.err = .none ∧ decodeEvent w ∈ [Instr.reset, .start]) ∨
      (t.err = .transportClosed ∧ decodeEvent w = .closed ∧ s.active = true) ∨
      (t.err = .handshakeTimeout ∧ decodeEvent w = .tick ∧ s.active = true ∧
        (s.hs = .awaitingFirstAck ∨ s.hs = .awaitingSecondAck) ∧ t.timer = Config.ackTimeout)) ∧
    (t.txt ≠ s.txt → decodeEvent w ∈ [Instr.reset, .start, .send, .tick, .stop, .closed] ∨
      ∃ b, decodeEvent w = .rx b) ∧
    (t.buf ≠ s.buf → decodeEvent w ∈ [Instr.reset, .start, .stop, .closed, .tick] ∨
      ((∃ b, decodeEvent w = .rx b) ∧ s.active = true ∧ s.hs = .streaming))

/-- From R63, R102, R103, R104: an event only adds to the trace, and what it adds is one of: a string, where SEND
writes it; Connected, where Streaming is entered; an error STATUS, where it ends the session; records and
diagnostics, by RX in Streaming, and never the kind UnrecognizedCommand. -/
def Obligations.OutputsComeWhereTheRulesSay : Prop :=
  ∀ (s t : State) (w : EventWord), exec (decodeEvent w) s = .next t →
    ∃ es, t.out = s.out ++ es ∧ ∀ e ∈ es,
      (e = .tx Config.configStr ∧ decodeEvent w = .send ∧ s.active = true ∧ s.hs = .configSent) ∨
      (e = .tx Config.runStr ∧ decodeEvent w = .send ∧ s.active = true ∧ s.hs = .runSent) ∨
      (e = .status .connected ∧ s.active = true ∧ t.active = true ∧ s.hs ≠ .streaming ∧ t.hs = .streaming) ∨
      (e = .status .handshakeTimeout ∧ decodeEvent w = .tick ∧ s.active = true ∧ t.active = false ∧
        t.err = .handshakeTimeout) ∨
      (e = .status .transportClosed ∧ decodeEvent w = .closed ∧ s.active = true ∧ t.active = false ∧
        t.err = .transportClosed) ∨
      ((∃ b, decodeEvent w = .rx b) ∧ s.active = true ∧ s.hs = .streaming ∧
        ((∃ x, e = .record x) ∨ (∃ raw, e = .diag .checksumMismatch raw) ∨ ∃ raw, e = .diag .decodeTooShort raw))

/-- R248, R282, R286: an event that ends a session releases both memories and reports at most one error, and while no
session exists no event but START begins one, and none emits anything. -/
def Obligations.SessionsEndOnce : Prop :=
  ∀ (s t : State) (w : EventWord), exec (decodeEvent w) s = .next t →
    (s.active = true → t.active = false →
      t.txt = [] ∧ t.buf = [] ∧ (t.out = s.out ∨ ∃ e, t.out = s.out ++ [e] ∧ isErrorStatus e = true)) ∧
    (s.active = false → t.out = s.out ∧ (t.active = true → decodeEvent w = .start))

/-- R109 as the model takes it (log 6, 17): a dispatch line whose condition does not hold is not selected and changes
nothing, and neither does a frame that is not the next one in the buffer of a streaming session. -/
def Obligations.UnselectedLinesChangeNothing : Prop :=
  ∀ (s : State) (b : Byte),
    (s.active = true → exec .startIdle s = .next s ∧ exec .stopIdle s = .next s ∧ exec .closedIdle s = .next s ∧
      exec .tickIdle s = .next s ∧ exec (.rxIdle b) s = .next s) ∧
    (s.active = false → exec .startActive s = .next s ∧ exec .stopActive s = .next s ∧
      exec .closedActive s = .next s) ∧
    (∀ h : HandshakeState, ¬ (s.active = true ∧ s.hs = h) →
      ∀ p ∈ [(HandshakeState.detectingInit, Instr.tickDetectingInit), (.configSent, .tickConfigSent),
        (.awaitingFirstAck, .tickAwaitingFirstAck), (.runSent, .tickRunSent),
        (.awaitingSecondAck, .tickAwaitingSecondAck), (.streaming, .tickStreaming),
        (.detectingInit, .rxDetectingInit b), (.configSent, .rxConfigSent b),
        (.awaitingFirstAck, .rxAwaitingFirstAck b), (.runSent, .rxRunSent b),
        (.awaitingSecondAck, .rxAwaitingSecondAck b), (.streaming, .rxStreaming b),
        (.configSent, .sendConfigSent), (.runSent, .sendRunSent)], p.1 = h → exec p.2 s = .next s) ∧
    (s.active = true → (s.hs = .configSent ∨ s.hs = .runSent) → exec .sendOther s = .next s) ∧
    (∀ f : Frame, ¬ (s.active = true ∧ s.hs = .streaming ∧ nextFrame s.buf = some f) →
      exec f.toInstr s = .next s)
end

