-- ==== Sys2Proof/Laws/Bytes.lean ====
section
/-! SUPPORT. Byte sequences: `byteAt`, `slice`, `last`, `find` and `contains` reduced to the list library. -/

namespace Sys2Proof.Machine

@[simp] theorem byteAt_cons_zero (b : Byte) (bs : List Byte) : byteAt (b :: bs) 0 = b := rfl

@[simp] theorem byteAt_cons_succ (b : Byte) (bs : List Byte) (i : Nat) : byteAt (b :: bs) (i + 1) = byteAt bs i := rfl

theorem byteAt_append_left {a : List Byte} (b : List Byte) {i : Nat} (h : i < a.length) :
    byteAt (a ++ b) i = byteAt a i := by
  simp [byteAt, List.getElem?_append_left h]

@[simp] theorem byteAt_append_right (a b : List Byte) (i : Nat) : byteAt (a ++ b) (a.length + i) = byteAt b i := by
  simp [byteAt, List.getD_eq_getElem?_getD, List.getElem?_append_right]

theorem byteAt_drop (s : List Byte) (n i : Nat) : byteAt (s.drop n) i = byteAt s (n + i) := by
  simp [byteAt, List.getD_eq_getElem?_getD]

theorem byteAt_take (s : List Byte) {n i : Nat} (h : i < n) : byteAt (s.take n) i = byteAt s i := by
  simp [byteAt, List.getD_eq_getElem?_getD, h]

/-- A slice of the part behind `a` is the slice of the whole, moved by `|a|`. -/
@[simp] theorem slice_append_right (a b : List Byte) (i j : Nat) :
    slice (a.length + i) (a.length + j) (a ++ b) = slice i j b := by
  simp [slice, List.take_append, List.drop_append]

/-- A slice that ends within `a` does not see what follows. -/
theorem slice_append_left {a : List Byte} (b : List Byte) (i : Nat) {j : Nat} (h : j ≤ a.length) :
    slice i j (a ++ b) = slice i j a := by
  simp [slice, List.take_append_of_le_length h]

theorem slice_length (a b : Nat) (s : List Byte) : (slice a b s).length = min b s.length - a := by
  simp [slice]

/-- `last(n, s)` is a tail of `s`. -/
theorem last_suffix (n : Nat) (s : List Byte) : last n s <:+ s := List.drop_suffix _ _

theorem last_length (n : Nat) (s : List Byte) : (last n s).length = min n s.length := by
  simp [last]; omega

/-- `txt_push` as a drop from the front (spec R61). -/
theorem txtPush_eq (b : Byte) (txt : List Byte) :
    txtPush b txt = (txt ++ [b]).drop (txt.length + 1 - Config.textWindow) := by
  simp [txtPush, last]

theorem txtPush_length (b : Byte) (txt : List Byte) : (txtPush b txt).length ≤ Config.textWindow := by
  rw [txtPush, last_length]; omega

/-- `contains(s, m)` says that some slice of `s` equals `m` (spec R11). -/
theorem contains_iff (s m : List Byte) : contains s m = true ↔ m <:+: s := by
  induction s with
  | nil => simp [contains]
  | cons b bs ih => simp [contains, List.infix_cons_iff, ih]

theorem contains_eq_false_iff (s m : List Byte) : contains s m = false ↔ ¬ m <:+: s := by
  rw [← contains_iff]; simp

/-- `find(v, s)` is none exactly where `v` does not occur (spec R11). -/
theorem find_eq_none_iff (v : Byte) (s : List Byte) : find v s = none ↔ v ∉ s := by
  induction s with
  | nil => simp [find]
  | cons b bs ih =>
    unfold find
    split <;> simp_all [eq_comm]

/-- Where `find(v, s)` is `i`, the sequence is `i` bytes without `v`, then `v`. -/
theorem find_eq_some_iff (v : Byte) (s : List Byte) (i : Nat) :
    find v s = some i ↔ ∃ pre post, s = pre ++ v :: post ∧ v ∉ pre ∧ pre.length = i := by
  induction s generalizing i with
  | nil => simp [find]
  | cons b bs ih =>
    unfold find
    split
    · rename_i h
      subst h
      constructor
      · rintro ⟨⟩
        exact ⟨[], bs, rfl, by simp, rfl⟩
      · rintro ⟨pre, post, hs, hn, rfl⟩
        cases pre with
        | nil => rfl
        | cons p ps => simp at hs hn; exact absurd hs.1 hn.1
    · rename_i h
      simp only [Option.map_eq_some_iff]
      constructor
      · rintro ⟨j, hj, rfl⟩
        obtain ⟨pre, post, rfl, hn, rfl⟩ := (ih j).1 hj
        exact ⟨b :: pre, post, rfl, by simp [hn, Ne.symm h], rfl⟩
      · rintro ⟨pre, post, hs, hn, rfl⟩
        cases pre with
        | nil => simp at hs; exact absurd hs.1 h
        | cons p ps =>
          simp at hs hn
          exact ⟨ps.length, (ih _).2 ⟨ps, post, hs.2, hn.2, rfl⟩, rfl⟩

/-- Noise in front moves the first sentinel. -/
theorem find_append_right {v : Byte} {a : List Byte} (b : List Byte) (h : find v a = none) :
    find v (a ++ b) = (find v b).map (a.length + ·) := by
  induction a with
  | nil => simp
  | cons c cs ih =>
    unfold find at h
    split at h
    · simp at h
    · rename_i hc
      simp only [Option.map_eq_none_iff] at h
      simp only [List.cons_append, find, if_neg hc, ih h, Option.map_map, List.length_cons]
      congr 1
      funext n
      simp only [Function.comp_apply]
      omega

/-- A first sentinel stays first whatever follows. -/
theorem find_append_left {v : Byte} {a : List Byte} {i : Nat} (b : List Byte) (h : find v a = some i) :
    find v (a ++ b) = some i := by
  obtain ⟨pre, post, rfl, hn, rfl⟩ := (find_eq_some_iff v a i).1 h
  exact (find_eq_some_iff _ _ _).2 ⟨pre, post ++ b, by simp, hn, rfl⟩

theorem find_lt_length {v : Byte} {s : List Byte} {i : Nat} (h : find v s = some i) : i < s.length := by
  obtain ⟨pre, post, rfl, -, rfl⟩ := (find_eq_some_iff v s i).1 h
  simp

/-- A tail of a sequence without `v` has no `v`. -/
theorem find_none_of_suffix {v : Byte} {a b : List Byte} (h : a <:+ b) (hb : find v b = none) : find v a = none :=
  (find_eq_none_iff v a).2 fun hm => (find_eq_none_iff v b).1 hb (h.subset hm)

end Sys2Proof.Machine
end

