-- ==== Sys2Proof/Laws/Checksum.lean ====
section
/-! SUPPORT. The checksum as a recursive sum, and the big-endian pair as a number. -/

namespace Sys2Proof.Machine

theorem checksum_foldl (acc : BitVec 16) (d : List Byte) :
    d.foldl (fun acc b => acc + b.setWidth 16) acc = acc + checksum d := by
  unfold checksum
  induction d generalizing acc with
  | nil => simp
  | cons b bs ih => simp only [List.foldl_cons]; rw [ih, ih (0 + b.setWidth 16)]; simp [BitVec.add_assoc]

@[simp] theorem checksum_nil : checksum [] = 0 := rfl

@[simp] theorem checksum_cons (b : Byte) (bs : List Byte) : checksum (b :: bs) = b.setWidth 16 + checksum bs := by
  rw [checksum, List.foldl_cons, checksum_foldl]; simp

theorem be16_toNat (hi lo : Byte) : (be16 hi lo).toNat = hi.toNat * 256 + lo.toNat := by
  have := Nat.two_pow_add_eq_or_of_lt lo.isLt hi.toNat
  simp only [be16, BitVec.toNat_append, Nat.shiftLeft_eq, Nat.mul_comm hi.toNat]
  omega

theorem validate_iff (d : List Byte) (hi lo : Byte) : validate d hi lo = true ↔ checksum d = be16 hi lo := by
  simp [validate]

theorem validate_eq_false_iff (d : List Byte) (hi lo : Byte) : validate d hi lo = false ↔ checksum d ≠ be16 hi lo := by
  simp [validate]

end Sys2Proof.Machine
end

