-- ==== Sys2Proof/Laws/State.lean ====
section
/-! SUPPORT. One lemma per field per update of the state, true by rfl: no proof unfolds a record update. -/

namespace Sys2Proof.Machine.State

variable (s : State)

@[simp] theorem setActive_active (v : Bool) : (setActive v s).active = v := rfl
@[simp] theorem setActive_hs (v : Bool) : (setActive v s).hs = s.hs := rfl
@[simp] theorem setActive_timer (v : Bool) : (setActive v s).timer = s.timer := rfl
@[simp] theorem setActive_err (v : Bool) : (setActive v s).err = s.err := rfl
@[simp] theorem setActive_txt (v : Bool) : (setActive v s).txt = s.txt := rfl
@[simp] theorem setActive_buf (v : Bool) : (setActive v s).buf = s.buf := rfl
@[simp] theorem setActive_out (v : Bool) : (setActive v s).out = s.out := rfl
@[simp] theorem setActive_held (v : Bool) : (setActive v s).held = s.held := rfl
@[simp] theorem setActive_inbox (v : Bool) : (setActive v s).inbox = s.inbox := rfl
@[simp] theorem setActive_result (v : Bool) : (setActive v s).result = s.result := rfl

@[simp] theorem setHs_active (v : HandshakeState) : (setHs v s).active = s.active := rfl
@[simp] theorem setHs_hs (v : HandshakeState) : (setHs v s).hs = v := rfl
@[simp] theorem setHs_timer (v : HandshakeState) : (setHs v s).timer = s.timer := rfl
@[simp] theorem setHs_err (v : HandshakeState) : (setHs v s).err = s.err := rfl
@[simp] theorem setHs_txt (v : HandshakeState) : (setHs v s).txt = s.txt := rfl
@[simp] theorem setHs_buf (v : HandshakeState) : (setHs v s).buf = s.buf := rfl
@[simp] theorem setHs_out (v : HandshakeState) : (setHs v s).out = s.out := rfl
@[simp] theorem setHs_held (v : HandshakeState) : (setHs v s).held = s.held := rfl
@[simp] theorem setHs_inbox (v : HandshakeState) : (setHs v s).inbox = s.inbox := rfl
@[simp] theorem setHs_result (v : HandshakeState) : (setHs v s).result = s.result := rfl

@[simp] theorem setTimer_active (v : Ticks) : (setTimer v s).active = s.active := rfl
@[simp] theorem setTimer_hs (v : Ticks) : (setTimer v s).hs = s.hs := rfl
@[simp] theorem setTimer_timer (v : Ticks) : (setTimer v s).timer = v := rfl
@[simp] theorem setTimer_err (v : Ticks) : (setTimer v s).err = s.err := rfl
@[simp] theorem setTimer_txt (v : Ticks) : (setTimer v s).txt = s.txt := rfl
@[simp] theorem setTimer_buf (v : Ticks) : (setTimer v s).buf = s.buf := rfl
@[simp] theorem setTimer_out (v : Ticks) : (setTimer v s).out = s.out := rfl
@[simp] theorem setTimer_held (v : Ticks) : (setTimer v s).held = s.held := rfl
@[simp] theorem setTimer_inbox (v : Ticks) : (setTimer v s).inbox = s.inbox := rfl
@[simp] theorem setTimer_result (v : Ticks) : (setTimer v s).result = s.result := rfl

@[simp] theorem setErr_active (v : ErrorCode) : (setErr v s).active = s.active := rfl
@[simp] theorem setErr_hs (v : ErrorCode) : (setErr v s).hs = s.hs := rfl
@[simp] theorem setErr_timer (v : ErrorCode) : (setErr v s).timer = s.timer := rfl
@[simp] theorem setErr_err (v : ErrorCode) : (setErr v s).err = v := rfl
@[simp] theorem setErr_txt (v : ErrorCode) : (setErr v s).txt = s.txt := rfl
@[simp] theorem setErr_buf (v : ErrorCode) : (setErr v s).buf = s.buf := rfl
@[simp] theorem setErr_out (v : ErrorCode) : (setErr v s).out = s.out := rfl
@[simp] theorem setErr_held (v : ErrorCode) : (setErr v s).held = s.held := rfl
@[simp] theorem setErr_inbox (v : ErrorCode) : (setErr v s).inbox = s.inbox := rfl
@[simp] theorem setErr_result (v : ErrorCode) : (setErr v s).result = s.result := rfl

@[simp] theorem setTxt_active (v : List Byte) : (setTxt v s).active = s.active := rfl
@[simp] theorem setTxt_hs (v : List Byte) : (setTxt v s).hs = s.hs := rfl
@[simp] theorem setTxt_timer (v : List Byte) : (setTxt v s).timer = s.timer := rfl
@[simp] theorem setTxt_err (v : List Byte) : (setTxt v s).err = s.err := rfl
@[simp] theorem setTxt_txt (v : List Byte) : (setTxt v s).txt = v := rfl
@[simp] theorem setTxt_buf (v : List Byte) : (setTxt v s).buf = s.buf := rfl
@[simp] theorem setTxt_out (v : List Byte) : (setTxt v s).out = s.out := rfl
@[simp] theorem setTxt_held (v : List Byte) : (setTxt v s).held = s.held := rfl
@[simp] theorem setTxt_inbox (v : List Byte) : (setTxt v s).inbox = s.inbox := rfl
@[simp] theorem setTxt_result (v : List Byte) : (setTxt v s).result = s.result := rfl

@[simp] theorem setBuf_active (v : List Byte) : (setBuf v s).active = s.active := rfl
@[simp] theorem setBuf_hs (v : List Byte) : (setBuf v s).hs = s.hs := rfl
@[simp] theorem setBuf_timer (v : List Byte) : (setBuf v s).timer = s.timer := rfl
@[simp] theorem setBuf_err (v : List Byte) : (setBuf v s).err = s.err := rfl
@[simp] theorem setBuf_txt (v : List Byte) : (setBuf v s).txt = s.txt := rfl
@[simp] theorem setBuf_buf (v : List Byte) : (setBuf v s).buf = v := rfl
@[simp] theorem setBuf_out (v : List Byte) : (setBuf v s).out = s.out := rfl
@[simp] theorem setBuf_held (v : List Byte) : (setBuf v s).held = s.held := rfl
@[simp] theorem setBuf_inbox (v : List Byte) : (setBuf v s).inbox = s.inbox := rfl
@[simp] theorem setBuf_result (v : List Byte) : (setBuf v s).result = s.result := rfl

@[simp] theorem setHeld_active (v : List Byte) : (setHeld v s).active = s.active := rfl
@[simp] theorem setHeld_hs (v : List Byte) : (setHeld v s).hs = s.hs := rfl
@[simp] theorem setHeld_timer (v : List Byte) : (setHeld v s).timer = s.timer := rfl
@[simp] theorem setHeld_err (v : List Byte) : (setHeld v s).err = s.err := rfl
@[simp] theorem setHeld_txt (v : List Byte) : (setHeld v s).txt = s.txt := rfl
@[simp] theorem setHeld_buf (v : List Byte) : (setHeld v s).buf = s.buf := rfl
@[simp] theorem setHeld_out (v : List Byte) : (setHeld v s).out = s.out := rfl
@[simp] theorem setHeld_held (v : List Byte) : (setHeld v s).held = v := rfl
@[simp] theorem setHeld_inbox (v : List Byte) : (setHeld v s).inbox = s.inbox := rfl
@[simp] theorem setHeld_result (v : List Byte) : (setHeld v s).result = s.result := rfl

@[simp] theorem setInbox_active (v : List EventWord) : (setInbox v s).active = s.active := rfl
@[simp] theorem setInbox_hs (v : List EventWord) : (setInbox v s).hs = s.hs := rfl
@[simp] theorem setInbox_timer (v : List EventWord) : (setInbox v s).timer = s.timer := rfl
@[simp] theorem setInbox_err (v : List EventWord) : (setInbox v s).err = s.err := rfl
@[simp] theorem setInbox_txt (v : List EventWord) : (setInbox v s).txt = s.txt := rfl
@[simp] theorem setInbox_buf (v : List EventWord) : (setInbox v s).buf = s.buf := rfl
@[simp] theorem setInbox_out (v : List EventWord) : (setInbox v s).out = s.out := rfl
@[simp] theorem setInbox_held (v : List EventWord) : (setInbox v s).held = s.held := rfl
@[simp] theorem setInbox_inbox (v : List EventWord) : (setInbox v s).inbox = v := rfl
@[simp] theorem setInbox_result (v : List EventWord) : (setInbox v s).result = s.result := rfl

@[simp] theorem setResult_active (v : Result) : (setResult v s).active = s.active := rfl
@[simp] theorem setResult_hs (v : Result) : (setResult v s).hs = s.hs := rfl
@[simp] theorem setResult_timer (v : Result) : (setResult v s).timer = s.timer := rfl
@[simp] theorem setResult_err (v : Result) : (setResult v s).err = s.err := rfl
@[simp] theorem setResult_txt (v : Result) : (setResult v s).txt = s.txt := rfl
@[simp] theorem setResult_buf (v : Result) : (setResult v s).buf = s.buf := rfl
@[simp] theorem setResult_out (v : Result) : (setResult v s).out = s.out := rfl
@[simp] theorem setResult_held (v : Result) : (setResult v s).held = s.held := rfl
@[simp] theorem setResult_inbox (v : Result) : (setResult v s).inbox = s.inbox := rfl
@[simp] theorem setResult_result (v : Result) : (setResult v s).result = v := rfl

@[simp] theorem emitAll_active (v : List Output) : (emitAll v s).active = s.active := rfl
@[simp] theorem emitAll_hs (v : List Output) : (emitAll v s).hs = s.hs := rfl
@[simp] theorem emitAll_timer (v : List Output) : (emitAll v s).timer = s.timer := rfl
@[simp] theorem emitAll_err (v : List Output) : (emitAll v s).err = s.err := rfl
@[simp] theorem emitAll_txt (v : List Output) : (emitAll v s).txt = s.txt := rfl
@[simp] theorem emitAll_buf (v : List Output) : (emitAll v s).buf = s.buf := rfl
@[simp] theorem emitAll_out (v : List Output) : (emitAll v s).out = s.out ++ v := rfl
@[simp] theorem emitAll_held (v : List Output) : (emitAll v s).held = s.held := rfl
@[simp] theorem emitAll_inbox (v : List Output) : (emitAll v s).inbox = s.inbox := rfl
@[simp] theorem emitAll_result (v : List Output) : (emitAll v s).result = s.result := rfl

@[simp] theorem emitAll_nil : emitAll [] s = s := by simp [emitAll]

end Sys2Proof.Machine.State
end

