-- ==== Sys2Proof/Laws/Frame.lean ====
section
/-! SUPPORT. The reassembler: what a scan says, that noise in front and bytes behind do not change it, that the fuel
of `drain` is enough, and what FEED leaves alone. -/

namespace Sys2Proof.Machine

/-! ### The scan -/

theorem scan_of_find_none {buf : List Byte} (h : find Config.sentinel buf = none) : scan buf = .noSentinel := by
  simp [scan, h]

theorem scan_eq_noSentinel_iff (buf : List Byte) : scan buf = .noSentinel ↔ find Config.sentinel buf = none := by
  unfold scan
  split
  · simp [*]
  · split
    · simp [*]
    · split <;> simp [*]

/-- A complete frame: a first sentinel, its length byte, and all `2 + L` bytes (spec R164, R165). -/
theorem scan_eq_complete_iff (buf : List Byte) (off total : Nat) :
    scan buf = .complete off total ↔
      find Config.sentinel buf = some off ∧ 2 ≤ buf.length - off ∧
        total = 2 + (byteAt buf (off + 1)).toNat ∧ total ≤ buf.length - off := by
  unfold scan
  split
  · simp [*]
  · rename_i o h
    simp only [h, Option.some.injEq]
    split
    · constructor
      · intro hx; cases hx
      · rintro ⟨rfl, h2, -⟩; omega
    · split
      · constructor
        · intro hx; cases hx
        · rintro ⟨rfl, h2, rfl, h3⟩; omega
      · simp only [Scan.complete.injEq]
        constructor
        · rintro ⟨rfl, rfl⟩; exact ⟨rfl, by omega, rfl, by omega⟩
        · rintro ⟨rfl, h2, rfl, h3⟩; exact ⟨rfl, rfl⟩

/-- A frame not yet complete (spec R163, R164). -/
theorem scan_eq_waiting_iff (buf : List Byte) :
    scan buf = .waiting ↔
      ∃ off, find Config.sentinel buf = some off ∧
        (buf.length - off < 2 ∨ buf.length - off < 2 + (byteAt buf (off + 1)).toNat) := by
  unfold scan
  split
  · simp [*]
  · rename_i o h
    simp only [h, Option.some.injEq, exists_eq_left']
    split
    · simp [*]
    · split <;> simp_all

theorem scan_complete_bounds {buf : List Byte} {off total : Nat} (h : scan buf = .complete off total) :
    2 ≤ total ∧ total ≤ 257 ∧ off + total ≤ buf.length := by
  obtain ⟨hf, h2, rfl, h3⟩ := (scan_eq_complete_iff _ _ _).1 h
  have := find_lt_length hf
  have := (byteAt buf (off + 1)).isLt
  omega

/-- Bytes behind a complete frame do not change what the scan finds. -/
theorem scan_append_of_complete {buf : List Byte} {off total : Nat} (more : List Byte)
    (h : scan buf = .complete off total) : scan (buf ++ more) = .complete off total := by
  obtain ⟨hf, h2, ht, h3⟩ := (scan_eq_complete_iff _ _ _).1 h
  refine (scan_eq_complete_iff _ _ _).2 ⟨find_append_left _ hf, ?_, ?_, ?_⟩
  · simp; omega
  · rw [byteAt_append_left _ (by omega)]; exact ht
  · simp; omega

/-- Noise in front moves what the scan finds and changes nothing else (spec R174). -/
theorem scan_noise {noise : List Byte} (buf : List Byte) (h : find Config.sentinel noise = none) :
    scan (noise ++ buf) =
      match scan buf with
      | .noSentinel => .noSentinel
      | .waiting => .waiting
      | .complete off total => .complete (noise.length + off) total := by
  have hl (o : Nat) : (noise ++ buf).length - (noise.length + o) = buf.length - o := by simp; omega
  have hb (o : Nat) : byteAt (noise ++ buf) (noise.length + o + 1) = byteAt buf (o + 1) := by
    rw [Nat.add_assoc, byteAt_append_right]
  cases hs : scan buf with
  | noSentinel =>
    rw [scan_eq_noSentinel_iff] at hs ⊢
    rw [find_append_right _ h, hs]; rfl
  | waiting =>
    obtain ⟨off, hf, hw⟩ := (scan_eq_waiting_iff _).1 hs
    refine (scan_eq_waiting_iff _).2 ⟨noise.length + off, ?_, ?_⟩
    · rw [find_append_right _ h, hf]; rfl
    · rw [hl, hb]; exact hw
  | complete off total =>
    obtain ⟨hf, h2, ht, h3⟩ := (scan_eq_complete_iff _ _ _).1 hs
    refine (scan_eq_complete_iff _ _ _).2 ⟨?_, ?_, ?_, ?_⟩
    · rw [find_append_right _ h, hf]; rfl
    · rw [hl]; exact h2
    · rw [hb]; exact ht
    · rw [hl]; exact h3

/-- A drained buffer holds no complete frame (spec R33 iv). -/
theorem drained_iff (buf : List Byte) :
    drained buf = true ↔
      (scan buf = .noSentinel ∧ buf.length ≤ Config.bufSoftBound) ∨ scan buf = .waiting := by
  rw [scan_eq_noSentinel_iff, scan_eq_waiting_iff]
  unfold drained
  split <;> simp [*]

/-! ### The loop -/

/-- Enough fuel is enough: any two amounts above the buffer's length give the same (spec R171). -/
theorem drain_fuel (n m : Nat) (buf : List Byte) (hn : buf.length < n) (hm : buf.length < m) :
    drain n buf = drain m buf := by
  induction n generalizing m buf with
  | zero => omega
  | succ n ih =>
    cases m with
    | zero => omega
    | succ m =>
      unfold drain
      cases hs : scan buf with
      | noSentinel => rfl
      | waiting => rfl
      | complete off total =>
        have := scan_complete_bounds hs
        have hd : (dropFront (off + total) buf).length = buf.length - (off + total) := by simp [dropFront]
        simp only [ih m (dropFront (off + total) buf) (by omega) (by omega)]

/-- The loop with its own fuel. -/
theorem drain_eq_feedBuf_nil (n : Nat) (buf : List Byte) (h : buf.length < n) : drain n buf = feedBuf [] buf := by
  simp only [feedBuf, append, List.append_nil]
  exact drain_fuel _ _ _ h (by omega)

theorem feedBuf_eq (chunk buf : List Byte) : feedBuf chunk buf = feedBuf [] (buf ++ chunk) := by
  simp [feedBuf, append]

/-- One pass where there is no sentinel (spec R162). -/
theorem feedBuf_noSentinel {buf : List Byte} (h : scan buf = .noSentinel) :
    feedBuf [] buf = (if Config.bufSoftBound < buf.length then trim buf else buf, []) := by
  simp [feedBuf, append, drain, h]

/-- One pass where the frame is not complete (spec R163, R164). -/
theorem feedBuf_waiting {buf : List Byte} (h : scan buf = .waiting) : feedBuf [] buf = (buf, []) := by
  simp [feedBuf, append, drain, h]

/-- One pass where a frame is complete: its events, then the loop on what is behind it (spec R165 to R170). -/
theorem feedBuf_complete {buf : List Byte} {off total : Nat} (h : scan buf = .complete off total) :
    feedBuf [] buf =
      ((feedBuf [] (buf.drop (off + total))).1,
        frameEvents (frameAt buf off total) (rawAt buf off total) ++ (feedBuf [] (buf.drop (off + total))).2) := by
  have hb := scan_complete_bounds h
  have hd : (dropFront (off + total) buf).length < buf.length := by simp [dropFront]; omega
  rw [show buf.drop (off + total) = dropFront (off + total) buf from rfl, ← drain_eq_feedBuf_nil buf.length _ hd,
    feedBuf]
  simp only [append, List.append_nil]
  rw [drain, h]

/-- Induction along the loop: a fact about every buffer follows from the three ways a pass can go. -/
theorem loop_induction {P : List Byte → Prop} (noSentinel : ∀ buf, scan buf = .noSentinel → P buf)
    (waiting : ∀ buf, scan buf = .waiting → P buf)
    (complete : ∀ buf off total, scan buf = .complete off total → P (buf.drop (off + total)) → P buf)
    (buf : List Byte) : P buf := by
  generalize hn : buf.length = n
  induction n using Nat.strongRecOn generalizing buf with
  | _ n ih =>
    cases hs : scan buf with
    | noSentinel => exact noSentinel buf hs
    | waiting => exact waiting buf hs
    | complete off total =>
      have := scan_complete_bounds hs
      exact complete buf off total hs (ih _ (by simp; omega) _ rfl)

/-- The frame and its bytes lie within the buffer: what follows does not change them. -/
theorem frameAt_append {buf : List Byte} {off total : Nat} (more : List Byte) (h : scan buf = .complete off total) :
    frameAt (buf ++ more) off total = frameAt buf off total ∧ rawAt (buf ++ more) off total = rawAt buf off total := by
  have := scan_complete_bounds h
  simp only [frameAt, rawAt, memRead]
  rw [slice_append_left _ _ (by omega), slice_append_left _ _ (by omega)]
  exact ⟨rfl, rfl⟩

/-- Noise in front does not change the frame or its bytes. -/
theorem frameAt_noise (noise buf : List Byte) (off total : Nat) :
    frameAt (noise ++ buf) (noise.length + off) total = frameAt buf off total ∧
      rawAt (noise ++ buf) (noise.length + off) total = rawAt buf off total := by
  simp only [frameAt, rawAt, memRead, Nat.add_assoc, slice_append_right, and_self]

/-! ### FEED on the state -/

@[simp] theorem feed_active (chunk : List Byte) (s : State) : (feed chunk s).active = s.active := rfl
@[simp] theorem feed_hs (chunk : List Byte) (s : State) : (feed chunk s).hs = s.hs := rfl
@[simp] theorem feed_timer (chunk : List Byte) (s : State) : (feed chunk s).timer = s.timer := rfl
@[simp] theorem feed_err (chunk : List Byte) (s : State) : (feed chunk s).err = s.err := rfl
@[simp] theorem feed_txt (chunk : List Byte) (s : State) : (feed chunk s).txt = s.txt := rfl
@[simp] theorem feed_held (chunk : List Byte) (s : State) : (feed chunk s).held = s.held := rfl
@[simp] theorem feed_inbox (chunk : List Byte) (s : State) : (feed chunk s).inbox = s.inbox := rfl
@[simp] theorem feed_result (chunk : List Byte) (s : State) : (feed chunk s).result = s.result := rfl
@[simp] theorem feed_buf (chunk : List Byte) (s : State) : (feed chunk s).buf = (feedBuf chunk s.buf).1 := rfl
@[simp] theorem feed_out (chunk : List Byte) (s : State) : (feed chunk s).out = s.out ++ (feedBuf chunk s.buf).2 := rfl

end Sys2Proof.Machine
end

