-- ==== Sys2Proof/Laws/Ops.lean ====
section
/-! SUPPORT. The shared operations: selection, holding, exceptions, teardown, entering Streaming, and that every
operation on the two memories keeps their form. -/

namespace Sys2Proof.Machine

/-! ### Selection -/

theorem whenSelected_of_true {c : Bool} (f : State → State) (s : State) (h : c = true) :
    whenSelected c f s = .next (f s) := by
  simp [whenSelected, h]

theorem whenSelected_of_false {c : Bool} (f : State → State) (s : State) (h : c = false) :
    whenSelected c f s = .next s := by
  simp [whenSelected, h]

@[simp] theorem whenSelected_ignored (c : Bool) (s : State) : whenSelected c ignored s = .next s := by
  cases c <;> rfl

@[simp] theorem inState_eq_true_iff (s : State) (h : HandshakeState) :
    s.inState h = true ↔ s.active = true ∧ s.hs = h := by
  simp [State.inState]

@[simp] theorem inState_eq_false_iff (s : State) (h : HandshakeState) :
    s.inState h = false ↔ ¬ (s.active = true ∧ s.hs = h) := by
  rw [← inState_eq_true_iff, Bool.not_eq_true]

@[simp] theorem writePending_eq_true_iff (s : State) :
    s.writePending = true ↔ s.active = true ∧ (s.hs = .configSent ∨ s.hs = .runSent) := by
  cases hs : s.hs <;> simp [State.writePending, isWriteState, hs]

/-! ### Emitting -/

@[simp] theorem emit_active (e : Output) (s : State) : (emit e s).active = s.active := rfl
@[simp] theorem emit_hs (e : Output) (s : State) : (emit e s).hs = s.hs := rfl
@[simp] theorem emit_timer (e : Output) (s : State) : (emit e s).timer = s.timer := rfl
@[simp] theorem emit_err (e : Output) (s : State) : (emit e s).err = s.err := rfl
@[simp] theorem emit_txt (e : Output) (s : State) : (emit e s).txt = s.txt := rfl
@[simp] theorem emit_buf (e : Output) (s : State) : (emit e s).buf = s.buf := rfl
@[simp] theorem emit_held (e : Output) (s : State) : (emit e s).held = s.held := rfl
@[simp] theorem emit_inbox (e : Output) (s : State) : (emit e s).inbox = s.inbox := rfl
@[simp] theorem emit_result (e : Output) (s : State) : (emit e s).result = s.result := rfl
@[simp] theorem emit_out (e : Output) (s : State) : (emit e s).out = s.out ++ [e] := rfl

/-! ### Teardown, exceptions, Streaming entered, a byte held -/

/-- Teardown releases both memories with `active` and touches nothing else (spec R282). -/
theorem teardown_eq (s : State) : teardown s = { s with active := false, txt := [], buf := [] } := rfl

/-- HandshakeTimeout (spec R271). -/
theorem takeException_handshakeTimeout (s : State) :
    takeException .handshakeTimeout s =
      { s with active := false, hs := .failed, err := .handshakeTimeout, txt := [], buf := [],
               out := s.out ++ [.status .handshakeTimeout] } := rfl

/-- TransportClosed (spec R272). -/
theorem takeException_transportClosed (s : State) :
    takeException .transportClosed s =
      { s with active := false, hs := (if s.hs = .streaming then .streaming else .failed),
               err := .transportClosed, txt := [], buf := [], out := s.out ++ [.status .transportClosed] } := rfl

/-- A recoverable error emits its report and touches nothing else (spec R283). -/
theorem takeException_recoverable (s : State) (raw : List Byte) :
    takeException (.checksumMismatch raw) s = { s with out := s.out ++ [.diag .checksumMismatch raw] } ∧
    takeException (.decodeTooShort raw) s = { s with out := s.out ++ [.diag .decodeTooShort raw] } ∧
    takeException .unrecognizedCommand s = s := by
  refine ⟨rfl, rfl, ?_⟩
  simp [takeException, exceptionReport]

theorem connect_eq (s : State) :
    connect s = { s with hs := .streaming, txt := [], out := s.out ++ [.status .connected] } := rfl

theorem sendString_eq (str : List Byte) (h : HandshakeState) (s : State) :
    sendString str h s = { s with out := s.out ++ [.tx str], hs := h, timer := 0, txt := [] } := rfl

theorem hold_eq (b : Byte) (s : State) : hold b s = { s with held := s.held ++ [b] } := rfl

/-- RX in a text state: the marker is seen or the byte is kept (spec R202, R208, R210). -/
theorem rxText_cases (marker : List Byte) (matched : State → State) (b : Byte) (s : State) :
    (marker <:+: txtPush b s.txt ∧ rxText marker matched b s = matched (s.setTxt (txtPush b s.txt))) ∨
    (¬ marker <:+: txtPush b s.txt ∧ rxText marker matched b s = s.setTxt (txtPush b s.txt)) := by
  by_cases h : marker <:+: txtPush b s.txt
  · exact .inl ⟨h, by simp [rxText, (contains_iff _ _).2 h]⟩
  · exact .inr ⟨h, by simp [rxText, (contains_eq_false_iff _ _).2 h]⟩

/-- TICK in DetectingInit: the window ends or the tick is counted (spec R203). -/
theorem tickDetecting_cases (s : State) :
    (s.timer + 1 = Config.detectWindow ∧ tickDetecting s = connect (s.setTimer (s.timer + 1))) ∨
    (s.timer + 1 ≠ Config.detectWindow ∧ tickDetecting s = s.setTimer (s.timer + 1)) := by
  by_cases h : s.timer + 1 = Config.detectWindow
  · exact .inl ⟨h, if_pos h⟩
  · exact .inr ⟨h, if_neg h⟩

/-- TICK in an acknowledgement state: the window ends or the tick is counted (spec R209, R211). -/
theorem tickAck_cases (s : State) :
    (s.timer + 1 = Config.ackTimeout ∧
      tickAck s = takeException .handshakeTimeout (s.setTimer (s.timer + 1))) ∨
    (s.timer + 1 ≠ Config.ackTimeout ∧ tickAck s = s.setTimer (s.timer + 1)) := by
  by_cases h : s.timer + 1 = Config.ackTimeout
  · exact .inl ⟨h, if_pos h⟩
  · exact .inr ⟨h, if_neg h⟩

/-! ### The form of the two memories -/

theorem memory_wf_iff (s : State) :
    Memory.wf s = true ↔ s.txt.length ≤ Config.textWindow ∧ drained s.buf = true := by
  simp [Memory.wf]

theorem drained_nil : drained [] = true := rfl

theorem trim_length (buf : List Byte) : (trim buf).length ≤ Config.bufTrimKeep := by
  rw [trim, last_length]; omega

/-- FEED leaves a drained buffer, whatever it began with (spec R171). -/
theorem feedBuf_drained (chunk buf : List Byte) : drained (feedBuf chunk buf).1 = true := by
  rw [feedBuf_eq]
  induction buf ++ chunk using loop_induction with
  | noSentinel b h =>
    rw [feedBuf_noSentinel h, drained_iff]
    have hf := (scan_eq_noSentinel_iff b).1 h
    left
    rw [scan_eq_noSentinel_iff]
    dsimp only
    split
    · exact ⟨find_none_of_suffix (last_suffix _ _) hf, Nat.le_trans (trim_length b) (Nat.le_of_ble_eq_true rfl)⟩
    · exact ⟨hf, by omega⟩
  | waiting b h => rw [feedBuf_waiting h, drained_iff]; exact .inr h
  | complete b off total h ih => rw [feedBuf_complete h]; exact ih

theorem reset_memory_wf : Memory.wf State.reset = true := rfl

/-- `txt_push` keeps the form (spec R61). -/
theorem txtPush_memory_wf (b : Byte) {s : State} (h : Memory.wf s = true) :
    Memory.wf (s.setTxt (txtPush b s.txt)) = true := by
  rw [memory_wf_iff] at h ⊢
  simpa [txtPush_length] using h.2

/-- `txt_clear` keeps the form (spec R61). -/
theorem txtClear_memory_wf {s : State} (h : Memory.wf s = true) : Memory.wf (txtClear s) = true := by
  rw [memory_wf_iff] at h ⊢
  simpa [txtClear] using h.2

/-- FEED keeps the form (spec R160, R171). -/
theorem feed_memory_wf (chunk : List Byte) {s : State} (h : Memory.wf s = true) :
    Memory.wf (feed chunk s) = true := by
  rw [memory_wf_iff] at h ⊢
  exact ⟨h.1, feedBuf_drained _ _⟩

/-- Teardown, START and RESET empty both memories. -/
theorem teardown_memory_wf (s : State) : Memory.wf (teardown s) = true := rfl

theorem beginSession_memory_wf (s : State) : Memory.wf (beginSession s) = true := rfl

theorem resetBlock_memory_wf (s : State) : Memory.wf (resetBlock s) = true := rfl

end Sys2Proof.Machine
end

