-- ==== Sys2Proof/Laws/PerInstr.lean ====
section
/-! SUPPORT. The size of an encoding, instruction by instruction: the family `Size` of LAWS.json. An event or
dispatch word is two bytes, a frame 2 to 257 bytes (spec R80), a marker, string or field its own bytes. -/

namespace Sys2Proof.Laws.Size

/-- The bytes an encoded form takes; a record field takes the bytes of the field. -/
def bytes (ws : Words) : Nat :=
  match ws with
  | .event _ => 2
  | .dispatch _ => 2
  | .frame bs => bs.length
  | .marker bs => bs.length
  | .txString bs => bs.length
  | .recordField _ size _ => size

/-- A well-formed instruction's encoding is never empty and never longer than the longest frame. -/
def Statement (i : Instr) : Prop :=
  WellFormed i = true → ∀ ws, encode i = some ws → 1 ≤ bytes ws ∧ bytes ws ≤ 257

/-- A form of a known size. -/
theorem of_encode {i : Instr} {ws : Words} (h : encode i = some ws) (h1 : 1 ≤ bytes ws) (h2 : bytes ws ≤ 257) :
    Statement i := by
  intro _ ws' h'
  rw [h, Option.some.injEq] at h'
  subst h'
  exact ⟨h1, h2⟩

/-- No form at all. -/
theorem of_none {i : Instr} (h : encode i = none) : Statement i := by
  intro _ ws' h'
  rw [h] at h'
  cases h'

/-- A frame is two bytes longer than its payload. -/
theorem frame_bytes (f : Frame) : bytes (.frame f.bytes) = f.payload.length + 2 := rfl

theorem reset : Statement .reset := of_encode rfl (by decide) (by decide)
theorem start : Statement .start := of_encode rfl (by decide) (by decide)
theorem stop : Statement .stop := of_encode rfl (by decide) (by decide)
theorem closed : Statement .closed := of_encode rfl (by decide) (by decide)
theorem tick : Statement .tick := of_encode rfl (by decide) (by decide)
theorem rx (b : Byte) : Statement (.rx b) := of_encode rfl (by simp [bytes]) (by simp [bytes])
theorem send : Statement .send := of_encode rfl (by decide) (by decide)
theorem reserved7 : Statement .reserved7 := of_encode rfl (by decide) (by decide)
theorem startIdle : Statement .startIdle := of_encode rfl (by decide) (by decide)
theorem startActive : Statement .startActive := of_encode rfl (by decide) (by decide)
theorem stopIdle : Statement .stopIdle := of_encode rfl (by decide) (by decide)
theorem stopActive : Statement .stopActive := of_encode rfl (by decide) (by decide)
theorem closedIdle : Statement .closedIdle := of_encode rfl (by decide) (by decide)
theorem closedActive : Statement .closedActive := of_encode rfl (by decide) (by decide)
theorem tickIdle : Statement .tickIdle := of_encode rfl (by decide) (by decide)
theorem tickDetectingInit : Statement .tickDetectingInit := of_encode rfl (by decide) (by decide)
theorem tickConfigSent : Statement .tickConfigSent := of_encode rfl (by decide) (by decide)
theorem tickAwaitingFirstAck : Statement .tickAwaitingFirstAck := of_encode rfl (by decide) (by decide)
theorem tickRunSent : Statement .tickRunSent := of_encode rfl (by decide) (by decide)
theorem tickAwaitingSecondAck : Statement .tickAwaitingSecondAck := of_encode rfl (by decide) (by decide)
theorem tickStreaming : Statement .tickStreaming := of_encode rfl (by decide) (by decide)
theorem rxIdle (b : Byte) : Statement (.rxIdle b) := of_encode rfl (by simp [bytes]) (by simp [bytes])
theorem rxDetectingInit (b : Byte) : Statement (.rxDetectingInit b) :=
  of_encode rfl (by simp [bytes]) (by simp [bytes])
theorem rxConfigSent (b : Byte) : Statement (.rxConfigSent b) := of_encode rfl (by simp [bytes]) (by simp [bytes])
theorem rxAwaitingFirstAck (b : Byte) : Statement (.rxAwaitingFirstAck b) :=
  of_encode rfl (by simp [bytes]) (by simp [bytes])
theorem rxRunSent (b : Byte) : Statement (.rxRunSent b) := of_encode rfl (by simp [bytes]) (by simp [bytes])
theorem rxAwaitingSecondAck (b : Byte) : Statement (.rxAwaitingSecondAck b) :=
  of_encode rfl (by simp [bytes]) (by simp [bytes])
theorem rxStreaming (b : Byte) : Statement (.rxStreaming b) := of_encode rfl (by simp [bytes]) (by simp [bytes])
theorem sendConfigSent : Statement .sendConfigSent := of_encode rfl (by decide) (by decide)
theorem sendRunSent : Statement .sendRunSent := of_encode rfl (by decide) (by decide)
theorem sendOther : Statement .sendOther := of_encode rfl (by decide) (by decide)

theorem frameShort (payload : List Byte) : Statement (.frameShort payload) := by
  intro hw ws h
  cases h
  have hp : payload.length < 3 := of_decide_eq_true hw
  rw [frame_bytes]
  simp only [Frame.payload]
  omega

theorem frameStatus (recordData : List Byte) (hi lo : Byte) : Statement (.frameStatus recordData hi lo) := by
  intro hw ws h
  cases h
  have hp : recordData.length ≤ 252 := of_decide_eq_true hw
  rw [frame_bytes]
  simp [Frame.payload]
  omega

theorem frameUnrec (command : Byte) (recordData : List Byte) (hi lo : Byte) :
    Statement (.frameUnrec command recordData hi lo) := by
  intro hw ws h
  cases h
  have hp : recordData.length ≤ 252 := of_decide_eq_true ((Bool.and_eq_true _ _ ▸ hw).2)
  rw [frame_bytes]
  simp [Frame.payload]
  omega

theorem markNotInit : Statement .markNotInit := of_encode rfl (by decide) (by decide)
theorem markOk : Statement .markOk := of_encode rfl (by decide) (by decide)
theorem configStr : Statement .configStr := of_encode rfl (by decide) (by decide)
theorem runStr : Statement .runStr := of_encode rfl (by decide) (by decide)
theorem recId (r : List Byte) : Statement (.recId r) := of_encode rfl (by simp [bytes]) (by simp [bytes])
theorem recSyncId (r : List Byte) : Statement (.recSyncId r) := of_encode rfl (by simp [bytes]) (by simp [bytes])
theorem recTimeOffsetMs (r : List Byte) : Statement (.recTimeOffsetMs r) :=
  of_encode rfl (by simp [bytes]) (by simp [bytes])
theorem recPadding (r : List Byte) : Statement (.recPadding r) := of_encode rfl (by simp [bytes]) (by simp [bytes])
theorem recLatitude (r : List Byte) : Statement (.recLatitude r) := of_encode rfl (by simp [bytes]) (by simp [bytes])
theorem recLongitude (r : List Byte) : Statement (.recLongitude r) :=
  of_encode rfl (by simp [bytes]) (by simp [bytes])
theorem recHeading (r : List Byte) : Statement (.recHeading r) := of_encode rfl (by simp [bytes]) (by simp [bytes])
theorem recCovPos (r : List Byte) : Statement (.recCovPos r) := of_encode rfl (by simp [bytes]) (by simp [bytes])
theorem recSpeedX (r : List Byte) : Statement (.recSpeedX r) := of_encode rfl (by simp [bytes]) (by simp [bytes])
theorem recSpeedY (r : List Byte) : Statement (.recSpeedY r) := of_encode rfl (by simp [bytes]) (by simp [bytes])
theorem recRotSpeed (r : List Byte) : Statement (.recRotSpeed r) := of_encode rfl (by simp [bytes]) (by simp [bytes])
theorem recDriveMode (r : List Byte) : Statement (.recDriveMode r) :=
  of_encode rfl (by simp [bytes]) (by simp [bytes])
theorem recAuxDataStatus (r : List Byte) : Statement (.recAuxDataStatus r) :=
  of_encode rfl (by simp [bytes]) (by simp [bytes])
theorem checksum (d : List Byte) : Statement (.checksum d) := of_none rfl
theorem validate (d : List Byte) (hi lo : Byte) : Statement (.validate d hi lo) := of_none rfl
theorem decode (r : List Byte) : Statement (.decode r) := of_none rfl
theorem feed (chunk : List Byte) : Statement (.feed chunk) := of_none rfl

end Sys2Proof.Laws.Size
end

