-- ==== Sys2Proof/Laws/Record.lean ====
section
/-! SUPPORT. DECODE in its two cases, and the little-endian assembly as numbers. -/

namespace Sys2Proof.Machine

theorem decodeRecord_short {r : List Byte} (h : r.length < Config.recordLen) : decodeRecord r = .error .tooShort := by
  simp [decodeRecord, h]

theorem decodeRecord_isOk {r : List Byte} (h : Config.recordLen ≤ r.length) : ∃ x, decodeRecord r = .ok x := by
  simp [decodeRecord, Nat.not_lt.2 h]

theorem decodeRecord_eq_ok_iff (r : List Byte) : (∃ x, decodeRecord r = .ok x) ↔ Config.recordLen ≤ r.length := by
  constructor
  · rintro ⟨x, hx⟩
    by_contra hc
    rw [decodeRecord_short (by omega)] at hx
    cases hx
  · exact decodeRecord_isOk

theorem append_toNat {n m : Nat} (a : BitVec n) (b : BitVec m) : (a ++ b).toNat = a.toNat * 2 ^ m + b.toNat := by
  have := Nat.two_pow_add_eq_or_of_lt b.isLt a.toNat
  rw [BitVec.toNat_append, Nat.shiftLeft_eq, Nat.mul_comm]
  omega

theorem le16_toNat (s : List Byte) (o : Nat) :
    (le16 s o).toNat = (byteAt s o).toNat + 256 * (byteAt s (o + 1)).toNat := by
  rw [le16, append_toNat]; omega

theorem le32_toNat (s : List Byte) (o : Nat) :
    (le32 s o).toNat = (le16 s o).toNat + 65536 * (le16 s (o + 2)).toNat := by
  rw [le32, append_toNat]; omega

theorem le64_toNat (s : List Byte) (o : Nat) :
    (le64 s o).toNat = (le32 s o).toNat + 4294967296 * (le32 s (o + 4)).toNat := by
  rw [le64, append_toNat]; omega

/-- `sint16` lies in the range of `i16` and has its pattern (spec R13). -/
theorem sint16_range (v : BitVec 16) : isI16 (sint16 v) = true := by
  have := v.isLt
  unfold sint16 isI16
  split <;> simp <;> omega

end Sys2Proof.Machine
end

