-- ==== Sys2Proof/Laws/Step.lean ====
section
/-! SUPPORT. What a step can be: the event taken next, in its cases, and that an input event always answers. -/

namespace Sys2Proof.Machine

theorem step_of_fetch {s s' : State} {w : EventWord} (h : fetch s = some (w, s')) :
    step s = exec (decodeEvent w) s' := by
  simp [step, h]

theorem step_of_nothing {s : State} (h : fetch s = none) : step s = .next s := by
  simp [step, h]

/-- Where the event taken next comes from, in all cases (spec R15, R218). -/
theorem fetch_cases (s : State) :
    (∃ b bs, s.rxHeld = false ∧ s.held = b :: bs ∧ fetch s = some (rxWord b, s.setHeld bs)) ∨
    (∃ w ws, s.inbox = w :: ws ∧ fetch s = some (w, s.setInbox ws)) ∨
    (s.inbox = [] ∧ fetch s = none) := by
  cases hr : s.rxHeld <;> cases hh : s.held <;> cases hi : s.inbox <;> simp [fetch, popInbox, hr, hh, hi]

@[simp] theorem eventCode_eventWord (c : BitVec 3) (b : Byte) : eventCode (eventWord c b) = c :=
  BitVec.extractLsb'_append_eq_left

@[simp] theorem eventOperand_eventWord (c : BitVec 3) (b : Byte) : eventOperand (eventWord c b) = b :=
  BitVec.extractLsb'_append_eq_right

theorem decodeEvent_rxWord (b : Byte) : decodeEvent (rxWord b) = .rx b := by
  simp [decodeEvent, rxWord]

/-- The eight events an event word can be (spec R97). -/
theorem decodeEvent_cases (w : EventWord) :
    decodeEvent w = .reset ∨ decodeEvent w = .start ∨ decodeEvent w = .stop ∨ decodeEvent w = .closed ∨
    decodeEvent w = .tick ∨ (∃ b, decodeEvent w = .rx b) ∨ decodeEvent w = .send ∨ decodeEvent w = .reserved7 := by
  unfold decodeEvent
  split <;> simp

end Sys2Proof.Machine
end

