-- ==== Sys2Proof/Tests/Slice0.lean ====
section
/-! SUPPORT. Tests: the words of the spec decoded, ill-formed terms refused, single steps with results taken from
spec/95_test_vectors.md and the tables of the rules, and for every statement with hypotheses a witness that meets
them. -/

namespace Sys2Proof.Tests

open Sys2Proof.Machine

/-! ### Small states and the record images of the vectors -/

/-- A session in a state, with its timer and its two memories. -/
def sess (h : HandshakeState) (timer : Ticks) (txt buf : List Byte) : State :=
  { State.reset with active := true, hs := h, timer := timer, txt := txt, buf := buf }

/-- No session, with a stale `hs` and `timer` (spec R32 d). -/
def idle (h : HandshakeState) (timer : Ticks) : State := { State.reset with hs := h, timer := timer }

/-- Image A (V20). -/
def imageA : List Byte :=
  [0x34, 0x12, 0x07, 0x00, 0x06, 0xFF, 0xAA, 0x55, 0x2C, 0x65, 0x19, 0xE2, 0x58, 0x35, 0x44, 0x40, 0xC5, 0x03, 0xCA, 0xA6,
   0x5C, 0xA1, 0x0D, 0xC0, 0x00, 0x00, 0xC0, 0x3F, 0x00, 0x00, 0x80, 0x3E, 0xDC, 0x05, 0x00, 0x80, 0xFF, 0xFF, 0x02, 0x80]

/-- Image B (V21). -/
def imageB : List Byte :=
  [0x01, 0x00, 0x02, 0x00, 0x03, 0x00, 0x00, 0x00, 0x00, 0x00, 0x00, 0x00, 0x00, 0x00, 0xF0, 0x3F, 0x00, 0x00, 0x00, 0x00,
   0x00, 0x00, 0x00, 0x40, 0x00, 0x00, 0x00, 0x3F, 0x00, 0x00, 0x00, 0x00, 0xE8, 0x03, 0x18, 0xFC, 0x00, 0x00, 0x01, 0x00]

/-- The image of V22. -/
def imageSpecial : List Byte :=
  [0xFF, 0xFF, 0xFF, 0xFF, 0xFF, 0xFF, 0xFF, 0xFF, 0x01, 0x00, 0x00, 0x00, 0x00, 0x00, 0xF8, 0x7F, 0x00, 0x00, 0x00, 0x00,
   0x00, 0x00, 0xF0, 0xFF, 0x00, 0x00, 0xC0, 0x7F, 0x00, 0x00, 0x80, 0x7F, 0xFF, 0xFF, 0xFF, 0xFF, 0xFF, 0xFF, 0xFF, 0xFF]

/-- Record A (V20). -/
def recordA : StatusRecord :=
  ⟨0x1234, 7, -250, 0x40443558E219652C, 0xC00DA15CA6CA03C5, 0x3FC00000, 0x3E800000, 1500, -32768, -1, 2, 0x80⟩

/-- Record B (V21). -/
def recordB : StatusRecord :=
  ⟨1, 2, 3, 0x3FF0000000000000, 0x4000000000000000, 0x3F000000, 0x00000000, 1000, -1000, 0, 1, 0⟩

/-- The record of V22. -/
def recordSpecial : StatusRecord :=
  ⟨65535, 65535, -1, 0x7FF8000000000001, 0xFFF0000000000000, 0x7FC00000, 0x7F800000, -1, -1, -1, 255, 255⟩

/-- Frame A (V30): 45 bytes. -/
def frameA : List Byte := [0xFF, 0x2B, 0x01] ++ imageA ++ [0x0E, 0x8F]

/-- Frame B (V31): 45 bytes. -/
def frameB : List Byte := [0xFF, 0x2B, 0x01] ++ imageB ++ [0x03, 0xB5]

/-! ### Well-formedness: an ill-formed term for each check -/

theorem test_wf_frameShort : WellFormed (.frameShort [1, 0, 0]) = false ∧ WellFormed (.frameShort [1, 0]) = true := by
  decide

theorem test_wf_frameStatus :
    WellFormed (.frameStatus (List.replicate 253 0) 0 0) = false ∧
    WellFormed (.frameStatus (List.replicate 252 0) 0 0) = true := by
  simp only [WellFormed, List.length_replicate]; decide

theorem test_wf_frameUnrec :
    WellFormed (.frameUnrec 1 [] 0 1) = false ∧ WellFormed (.frameUnrec 2 (List.replicate 253 0) 0 0) = false ∧
    WellFormed (.frameUnrec 2 (List.replicate 252 0) 0 0) = true := by
  simp only [WellFormed, List.length_replicate]; decide

theorem test_wf_decode :
    WellFormed (.decode (List.replicate 253 0)) = false ∧ WellFormed (.decode (List.replicate 252 0)) = true := by
  simp only [WellFormed, List.length_replicate]; decide

/-- The thirteen field instructions of record data. -/
def allFields (r : List Byte) : List Instr :=
  [.recId r, .recSyncId r, .recTimeOffsetMs r, .recPadding r, .recLatitude r, .recLongitude r, .recHeading r,
   .recCovPos r, .recSpeedX r, .recSpeedY r, .recRotSpeed r, .recDriveMode r, .recAuxDataStatus r]

/-- Record data shorter than an image or longer than a frame holds, for every field; 40 and 252 bytes pass. -/
theorem test_wf_fields :
    (∀ n ∈ [39, 253], ∀ i ∈ allFields (List.replicate n 0), WellFormed i = false) ∧
    (∀ n ∈ [40, 252], ∀ i ∈ allFields (List.replicate n 0), WellFormed i = true) := by
  have h39 : recordDataOk (List.replicate 39 0) = false := by
    simp only [recordDataOk, List.length_replicate]; decide
  have h253 : recordDataOk (List.replicate 253 0) = false := by
    simp only [recordDataOk, List.length_replicate]; decide
  have h40 : recordDataOk (List.replicate 40 0) = true := by
    simp only [recordDataOk, List.length_replicate]; decide
  have h252 : recordDataOk (List.replicate 252 0) = true := by
    simp only [recordDataOk, List.length_replicate]; decide
  constructor <;> intro n hn i hi <;> simp only [List.mem_cons, List.not_mem_nil, or_false] at hn <;>
    rcases hn with rfl | rfl <;> revert hi <;> simp only [allFields, List.mem_cons, List.not_mem_nil, or_false] <;>
    rintro (rfl | rfl | rfl | rfl | rfl | rfl | rfl | rfl | rfl | rfl | rfl | rfl | rfl) <;>
    simp only [WellFormed, h39, h253, h40, h252]

/-! ### Decoding: words written out from the tables of the spec -/

/-- The event codes of R97, code in bits 10:8; the operand of all but RX is ignored (R98; V89 has 0x7A5). -/
theorem test_decode_event :
    decode (.event 0b00000000000) = .ok .reset ∧ decode (.event 0b00100000000) = .ok .start ∧
    decode (.event 0b01000000000) = .ok .stop ∧ decode (.event 0b01100000000) = .ok .closed ∧
    decode (.event 0b10000000000) = .ok .tick ∧ decode (.event 0b10100100011) = .ok (.rx 0x23) ∧
    decode (.event 0b11000000000) = .ok .send ∧ decode (.event 0x7A5) = .ok .reserved7 ∧
    decode (.event 0x4FF) = .ok .tick ∧ decode (.event 0x0FF) = .ok .reset := by decide

/-- R108, START, STOP and CLOSED: `active` in bit 14, any `hs`, any operand. -/
theorem test_decode_dispatch_session :
    decode (.dispatch 0b000000100000000) = .ok .startIdle ∧ decode (.dispatch 0b100000100000000) = .ok .startActive ∧
    decode (.dispatch 0b010101000000000) = .ok .stopIdle ∧ decode (.dispatch 0b110101011111111) = .ok .stopActive ∧
    decode (.dispatch 0b011001100000000) = .ok .closedIdle ∧ decode (.dispatch 0b111001100000001) = .ok .closedActive ∧
    decode (.dispatch 0b110100000000000) = .ok .reset ∧ decode (.dispatch 0b110111100000000) = .ok .reserved7 := by
  decide

/-- R108, TICK: V92 and the six states of a session, the code of `hs` in bits 13:11. -/
theorem test_decode_dispatch_tick :
    decode (.dispatch 0x3400) = .ok .tickIdle ∧ decode (.dispatch 0b100010000000000) = .ok .tickDetectingInit ∧
    decode (.dispatch 0b100110000000000) = .ok .tickConfigSent ∧
    decode (.dispatch 0b101010000000000) = .ok .tickAwaitingFirstAck ∧
    decode (.dispatch 0b101110000000000) = .ok .tickRunSent ∧
    decode (.dispatch 0b110010000000000) = .ok .tickAwaitingSecondAck ∧
    decode (.dispatch 0b110110000000000) = .ok .tickStreaming := by decide

/-- R108, RX: V90, V93 and the other states of a session, the byte in bits 7:0. -/
theorem test_decode_dispatch_rx :
    decode (.dispatch 0b001010111111111) = .ok (.rxIdle 0xFF) ∧
    decode (.dispatch 0b100010100100011) = .ok (.rxDetectingInit 0x23) ∧
    decode (.dispatch 0b100110100001010) = .ok (.rxConfigSent 0x0A) ∧
    decode (.dispatch 0x5523) = .ok (.rxAwaitingFirstAck 0x23) ∧
    decode (.dispatch 0b101110100001010) = .ok (.rxRunSent 0x0A) ∧
    decode (.dispatch 0b110010101001011) = .ok (.rxAwaitingSecondAck 0x4B) ∧
    decode (.dispatch 0x6DFF) = .ok (.rxStreaming 0xFF) := by decide

/-- R108, SEND: V91, V94, ConfigSent, and no session. -/
theorem test_decode_dispatch_send :
    decode (.dispatch 0b100111000000000) = .ok .sendConfigSent ∧ decode (.dispatch 0x5E00) = .ok .sendRunSent ∧
    decode (.dispatch 0x4600) = .ok .sendOther ∧ decode (.dispatch 0b000111000000000) = .ok .sendOther := by decide

/-- R83, R109: S7, V38, V39, V40, V41 and the longest short frame. -/
theorem test_decode_frame :
    decode (.frame [0xFF, 0x03, 0x01, 0x00, 0x01]) = .ok (.frameStatus [] 0x00 0x01) ∧
    decode (.frame [0xFF, 0x05, 0x02, 0xDE, 0xAD, 0x01, 0x8D]) = .ok (.frameUnrec 0x02 [0xDE, 0xAD] 0x01 0x8D) ∧
    decode (.frame [0xFF, 0x00]) = .ok (.frameShort []) ∧ decode (.frame [0xFF, 0x01, 0x01]) = .ok (.frameShort [1]) ∧
    decode (.frame [0xFF, 0x02, 0x01, 0x00]) = .ok (.frameShort [1, 0]) := by decide

/-- R80, V30: the 45 bytes of frame A. -/
theorem test_decode_frameA : decode (.frame frameA) = .ok (.frameStatus imageA 0x0E 0x8F) := by rfl

/-- R92 to R95: the four strings, written as text here. -/
theorem test_decode_strings :
    decode (.marker ("#NOT_INITIALIZED".toList.map (fun c => BitVec.ofNat 8 c.toNat))) = .ok .markNotInit ∧
    decode (.marker ("#OK".toList.map (fun c => BitVec.ofNat 8 c.toNat))) = .ok .markOk ∧
    decode (.txString ("#CONFIG,0,2402.5,5,0,LORA,5,1600,5,16\n".toList.map (fun c => BitVec.ofNat 8 c.toNat))) =
      .ok .configStr ∧
    decode (.txString ("#RUN\n".toList.map (fun c => BitVec.ofNat 8 c.toNat))) = .ok .runStr := by decide

/-- R86: the thirteen rows of the record layout. -/
theorem test_decode_fields :
    decode (.recordField 0 2 imageA) = .ok (.recId imageA) ∧
    decode (.recordField 2 2 imageA) = .ok (.recSyncId imageA) ∧
    decode (.recordField 4 2 imageA) = .ok (.recTimeOffsetMs imageA) ∧
    decode (.recordField 6 2 imageA) = .ok (.recPadding imageA) ∧
    decode (.recordField 8 8 imageA) = .ok (.recLatitude imageA) ∧
    decode (.recordField 16 8 imageA) = .ok (.recLongitude imageA) ∧
    decode (.recordField 24 4 imageA) = .ok (.recHeading imageA) ∧
    decode (.recordField 28 4 imageA) = .ok (.recCovPos imageA) ∧
    decode (.recordField 32 2 imageA) = .ok (.recSpeedX imageA) ∧
    decode (.recordField 34 2 imageA) = .ok (.recSpeedY imageA) ∧
    decode (.recordField 36 2 imageA) = .ok (.recRotSpeed imageA) ∧
    decode (.recordField 38 1 imageA) = .ok (.recDriveMode imageA) ∧
    decode (.recordField 39 1 imageA) = .ok (.recAuxDataStatus imageA) :=
  ⟨rfl, rfl, rfl, rfl, rfl, rfl, rfl, rfl, rfl, rfl, rfl, rfl, rfl⟩

/-- What has no line, no class or no field is refused by name. -/
theorem test_decode_rejects :
    decode (.dispatch 0b111010100000000) = .error .noDispatchRow ∧
    decode (.dispatch 0b111110000000000) = .error .noDispatchRow ∧
    decode (.frame [0x00, 0x00]) = .error .noSentinel ∧ decode (.frame [0xFF]) = .error .incompleteFrame ∧
    decode (.frame [0xFF, 0x03, 0x01, 0x00]) = .error .incompleteFrame ∧
    decode (.frame [0xFF, 0x00, 0x00]) = .error .trailingBytes ∧
    decode (.marker [0x23, 0x6F, 0x6B]) = .error .unknownMarker ∧
    decode (.txString [0x23]) = .error .unknownTxString ∧
    decode (.recordField 0 4 imageA) = .error .unknownField ∧
    decode (.recordField 0 2 []) = .error .badRecordLength := by decide

/-- R109: table words of each width: `match` of START, START.active, FRAME.UNREC with `L` 5, MARK_OK, RUN_STR, and
the header `FF 2B 01`, whose other bytes are zero. -/
theorem test_decodeTableWord :
    decodeTableWord 16 0x0100 = some .start ∧ decodeTableWord 16 0x4100 = some .startActive ∧
    decodeTableWord 24 0xFF0502 = some (.frameUnrec 2 [0, 0] 0 0) ∧ decodeTableWord 24 0x234F4B = some .markOk ∧
    decodeTableWord 40 0x2352554E0A = some .runStr ∧
    decodeTableWord 24 0xFF2B01 = some (.frameStatus (List.replicate 40 0) 0 0) ∧
    decodeTableWord 24 0xFF0000 = some (.frameShort []) ∧ decodeTableWord 16 0x7500 = none := by decide

/-- A table word laid by `withFetchWord` is what the next step runs: START from reset; a SEND line; the frame
`FF 02 00 00`, of which the last byte is taken. -/
theorem test_withFetchWord :
    step (State.reset.withFetchWord 16 0x0100) = exec .start State.reset ∧
    step (State.reset.withFetchWord 16 0x5E00) = exec .sendRunSent (sess .runSent 0 [] []) ∧
    step (State.reset.withFetchWord 24 0xFF0200) = exec (.rxStreaming 0) (sess .streaming 0 [] [0xFF, 0x02, 0x00]) :=
  ⟨rfl, rfl, rfl⟩

/-! ### Single steps: session and reset -/

/-- V88. -/
theorem test_reset :
    exec .reset { sess .awaitingSecondAck 57 [0x23, 0x4F] [] with err := .none } = .next State.reset := rfl

/-- R240, V82: the stale `hs` and `timer` of a stopped session. -/
theorem test_start : exec .start (idle .streaming 1000) = .next (sess .detectingInit 0 [] []) := rfl
theorem test_startIdle : exec .startIdle (idle .failed 200) = .next (sess .detectingInit 0 [] []) := rfl

/-- V87. -/
theorem test_start_ignored : exec .start (sess .streaming 1000 [] []) = .next (sess .streaming 1000 [] []) := rfl
theorem test_startActive : exec .startActive (sess .streaming 3 [] [1]) = .next (sess .streaming 3 [] [1]) := rfl

/-- V80. -/
theorem test_stop : exec .stop (sess .streaming 1000 [] (frameB.take 10)) = .next (idle .streaming 1000) := rfl
/-- V86. -/
theorem test_stopActive : exec .stopActive (sess .configSent 12 [] []) = .next (idle .configSent 12) := rfl
theorem test_stopIdle : exec .stopIdle (idle .failed 5) = .next (idle .failed 5) := rfl

/-- V83. -/
theorem test_closed :
    exec .closed (sess .awaitingFirstAck 3 [0x23] []) =
      .next { idle .failed 3 with err := .transportClosed, out := [.status .transportClosed] } := rfl
/-- V85. -/
theorem test_closedActive :
    exec .closedActive (sess .streaming 1000 [] (frameB.take 10)) =
      .next { idle .streaming 1000 with err := .transportClosed, out := [.status .transportClosed] } := rfl
/-- V84. -/
theorem test_closedIdle : exec .closedIdle (idle .failed 3) = .next (idle .failed 3) := rfl

/-- V89. -/
theorem test_reserved7 : exec .reserved7 (sess .runSent 5 [] []) = .next (sess .runSent 5 [] []) := rfl

/-! ### Single steps: the handshake -/

/-- V60, V61. -/
theorem test_tick_detecting :
    exec .tick (sess .detectingInit 998 [0x41] []) = .next (sess .detectingInit 999 [0x41] []) := rfl
theorem test_tickDetectingInit_end :
    exec .tickDetectingInit (sess .detectingInit 999 [0x41] []) =
      .next { sess .streaming 1000 [] [] with out := [.status .connected] } := rfl

/-- V70. -/
theorem test_tickConfigSent : exec .tickConfigSent (sess .configSent 999 [] []) = .next (sess .configSent 999 [] []) :=
  rfl
theorem test_tickRunSent : exec .tickRunSent (sess .runSent 199 [] []) = .next (sess .runSent 199 [] []) := rfl
theorem test_tickStreaming : exec .tickStreaming (sess .streaming 0 [] []) = .next (sess .streaming 0 [] []) := rfl
theorem test_tickIdle : exec .tickIdle (idle .awaitingFirstAck 199) = .next (idle .awaitingFirstAck 199) := rfl

/-- V67, P3 step 5. -/
theorem test_tickAwaitingFirstAck :
    exec .tickAwaitingFirstAck (sess .awaitingFirstAck 198 [0x23, 0x4F] []) =
      .next (sess .awaitingFirstAck 199 [0x23, 0x4F] []) := rfl
theorem test_tickAwaitingFirstAck_end :
    exec .tickAwaitingFirstAck (sess .awaitingFirstAck 199 [0x23, 0x4F] []) =
      .next { idle .failed 200 with err := .handshakeTimeout, out := [.status .handshakeTimeout] } := rfl
/-- V69. -/
theorem test_tickAwaitingSecondAck_end :
    exec .tickAwaitingSecondAck (sess .awaitingSecondAck 199 Config.markNotInit []) =
      .next { idle .failed 200 with err := .handshakeTimeout, out := [.status .handshakeTimeout] } := rfl

/-- V62: the sixteenth byte. -/
theorem test_rxDetectingInit :
    exec (.rxDetectingInit 0x44) (sess .detectingInit 999 (Config.markNotInit.take 15) []) =
      .next (sess .configSent 999 [] []) := rfl
/-- R202: `#OK` has no effect there. -/
theorem test_rxDetectingInit_ok :
    exec (.rxDetectingInit 0x4B) (sess .detectingInit 0 [0x23, 0x4F] []) =
      .next (sess .detectingInit 0 [0x23, 0x4F, 0x4B] []) := rfl
/-- P1 step 5. -/
theorem test_rxConfigSent :
    exec (.rxConfigSent 0x0A) (sess .configSent 0 [] []) = .next { sess .configSent 0 [] [] with held := [0x0A] } := rfl
theorem test_rxRunSent :
    exec (.rxRunSent 0x0A) { sess .runSent 0 [] [] with held := [0x0D] } =
      .next { sess .runSent 0 [] [] with held := [0x0D, 0x0A] } := rfl
/-- V65: `##OK` and `#O#OK`. -/
theorem test_rxAwaitingFirstAck :
    exec (.rxAwaitingFirstAck 0x4B) (sess .awaitingFirstAck 5 [0x23, 0x23, 0x4F] []) =
      .next (sess .runSent 5 [] []) := rfl
theorem test_rxAwaitingFirstAck_inner :
    exec (.rxAwaitingFirstAck 0x4B) (sess .awaitingFirstAck 199 [0x23, 0x4F, 0x23, 0x4F] []) =
      .next (sess .runSent 199 [] []) := rfl
/-- P1 step 9. -/
theorem test_rxAwaitingSecondAck :
    exec (.rxAwaitingSecondAck 0x4B) (sess .awaitingSecondAck 0 [0x0D, 0x0A, 0x23, 0x4F] []) =
      .next { sess .streaming 0 [] [] with out := [.status .connected] } := rfl
/-- V65: case matters. -/
theorem test_rxAwaitingSecondAck_case :
    exec (.rxAwaitingSecondAck 0x6B) (sess .awaitingSecondAck 0 [0x23, 0x6F] []) =
      .next (sess .awaitingSecondAck 0 [0x23, 0x6F, 0x6B] []) := rfl
/-- V81. -/
theorem test_rxIdle : exec (.rxIdle 0xFF) (idle .streaming 1000) = .next (idle .streaming 1000) := rfl
/-- R243, P1 step 10: the byte after the second marker goes to the reassembler. -/
theorem test_rx : exec (.rx 0x0A) (sess .streaming 0 [] []) = .next (sess .streaming 0 [] [0x0A]) := rfl

/-- P1 steps 4 and 8. -/
theorem test_sendConfigSent :
    exec .sendConfigSent (sess .configSent 7 [] []) =
      .next { sess .awaitingFirstAck 0 [] [] with out := [.tx Config.configStr] } := rfl
theorem test_sendRunSent :
    exec .sendRunSent (sess .runSent 5 [] []) =
      .next { sess .awaitingSecondAck 0 [] [] with out := [.tx [0x23, 0x52, 0x55, 0x4E, 0x0A]] } := rfl
/-- V94. -/
theorem test_sendOther : exec .sendOther (sess .detectingInit 0 [] []) = .next (sess .detectingInit 0 [] []) := rfl
theorem test_send : exec .send (sess .streaming 1 [] [2]) = .next (sess .streaming 1 [] [2]) := rfl

/-- R214, V64: a full window drops its oldest byte. -/
theorem test_txtPush_window :
    (txtPush 0x23 (0x01 :: List.replicate 499 0x78)) = List.replicate 499 0x78 ++ [0x23] := by
  rw [txtPush_eq]
  simp only [List.length_cons, List.length_replicate, Config.textWindow, List.cons_append]
  rfl

/-- R93, R104. -/
theorem test_runStr :
    exec .runStr (sess .runSent 0 [] []) =
      .next { sess .runSent 0 [] [] with out := [.tx [0x23, 0x52, 0x55, 0x4E, 0x0A]] } := rfl
theorem test_configStr :
    exec .configStr (sess .runSent 0 [] []) = .next (sess .runSent 0 [] []) := rfl
/-- R208: a further `#NOT_INITIALIZED` is ordinary text. -/
theorem test_markNotInit :
    exec .markNotInit (sess .awaitingFirstAck 0 Config.markNotInit []) =
      .next (sess .awaitingFirstAck 0 Config.markNotInit []) := rfl
theorem test_markOk :
    exec .markOk (sess .awaitingSecondAck 4 Config.markOk []) =
      .next { sess .streaming 4 [] [] with out := [.status .connected] } := rfl

/-! ### Single steps: the reassembler -/

/-- S7. -/
theorem test_rxStreaming_tooShort :
    exec (.rxStreaming 0x01) (sess .streaming 1000 [] [0xFF, 0x03, 0x01, 0x00]) =
      .next { sess .streaming 1000 [] [] with out := [.diag .decodeTooShort [0xFF, 0x03, 0x01, 0x00, 0x01]] } := rfl
/-- V30. -/
theorem test_rxStreaming_record :
    exec (.rxStreaming 0x8F) (sess .streaming 1000 [] (frameA.take 44)) =
      .next { sess .streaming 1000 [] [] with out := [.record recordA] } := rfl
/-- V42 on one chunk: the noise `41 42` is not in `raw`, the `43` stays. -/
theorem test_feedBuf_noise :
    feedBuf [0x41, 0x42, 0xFF, 0x03, 0x01, 0x00, 0x01, 0x43] [] =
      ([0x43], [.diag .decodeTooShort [0xFF, 0x03, 0x01, 0x00, 0x01]]) := rfl
/-- V46. -/
theorem test_feedBuf_two :
    feedBuf (frameB ++ frameA ++ frameB.take 20) [] = (frameB.take 20, [.record recordB, .record recordA]) := rfl
/-- V35. -/
theorem test_frameStatus_mismatch :
    exec (.frameStatus [] 0x00 0x02) (sess .streaming 0 [] [0xFF, 0x03, 0x01, 0x00, 0x02]) =
      .next { sess .streaming 0 [] [] with out := [.diag .checksumMismatch [0xFF, 0x03, 0x01, 0x00, 0x02]] } := rfl
/-- V31. -/
theorem test_frameStatus_record :
    exec (.frameStatus imageB 0x03 0xB5) (sess .streaming 0 [] frameB) =
      .next { sess .streaming 0 [] [] with out := [.record recordB] } := rfl
/-- V36: the command is tested before the checksum. -/
theorem test_frameUnrec :
    exec (.frameUnrec 2 [] 0x00 0x00) (sess .streaming 0 [] [0xFF, 0x03, 0x02, 0x00, 0x00]) =
      .next (sess .streaming 0 [] []) := rfl
/-- V41: too short, although its command byte is 1; the real frame behind it stays. -/
theorem test_frameShort :
    exec (.frameShort [0x01, 0x00]) (sess .streaming 0 [] [0x07, 0xFF, 0x02, 0x01, 0x00, 0xFF]) =
      .next (sess .streaming 0 [] [0xFF]) := rfl
/-- V32, one of the sixteen flips, and V33. -/
theorem test_feedBuf_mismatch :
    (feedBuf ([0xFF, 0x2B, 0x01] ++ imageA ++ [0x0E, 0x8E]) []).2 =
      [.diag .checksumMismatch ([0xFF, 0x2B, 0x01] ++ imageA ++ [0x0E, 0x8E])] ∧
    (feedBuf (badFrame 1 imageB 0x0100) []).2 =
      [.diag .checksumMismatch ([0xFF, 0x2B, 0x01] ++ imageB ++ [0x02, 0xB5])] := ⟨rfl, rfl⟩

/-! ### Single steps: checksum and record -/

/-- V14, and V13: the wrap. -/
theorem test_checksum : checksum [0x12, 0x34] = 0x0046 ∧ checksum (List.replicate 258 0xFF) = 0x00FE := by
  constructor
  · rfl
  · set_option maxRecDepth 4000 in rfl
/-- V18. -/
theorem test_checksum_image :
    exec (.checksum (0x01 :: imageA)) State.reset = .next { State.reset with result := .u16 0x0E8F } := rfl
/-- V15, V16: the pair is big-endian. -/
theorem test_validate :
    exec (.validate [0x01] 0x00 0x01) State.reset = .next { State.reset with result := .bool true } ∧
    exec (.validate [0x01] 0x01 0x00) State.reset = .next { State.reset with result := .bool false } := ⟨rfl, rfl⟩
/-- V20, V25: 41 bytes. -/
theorem test_decode :
    exec (.decode imageA) State.reset = .next { State.reset with result := .record recordA } ∧
    exec (.decode (imageB ++ [0x99])) State.reset = .next { State.reset with result := .record recordB } := ⟨rfl, rfl⟩
/-- V23, V22. -/
theorem test_decode_corners :
    exec (.decode (imageB.take 39)) State.reset = .next { State.reset with result := .tooShort } ∧
    decodeRecord imageSpecial = .ok recordSpecial := ⟨rfl, rfl⟩
/-- V20, field by field. -/
theorem test_fields_small :
    exec (.recId imageA) State.reset = .next { State.reset with result := .u16 0x1234 } ∧
    exec (.recSyncId imageA) State.reset = .next { State.reset with result := .u16 7 } ∧
    exec (.recTimeOffsetMs imageA) State.reset = .next { State.reset with result := .i16 (-250) } ∧
    exec (.recPadding imageA) State.reset = .next { State.reset with result := .skipped } ∧
    exec (.recSpeedX imageA) State.reset = .next { State.reset with result := .milli 1500 } ∧
    exec (.recSpeedY imageA) State.reset = .next { State.reset with result := .milli (-32768) } ∧
    exec (.recRotSpeed imageA) State.reset = .next { State.reset with result := .milli (-1) } ∧
    exec (.recDriveMode imageA) State.reset = .next { State.reset with result := .u8 2 } ∧
    exec (.recAuxDataStatus imageA) State.reset = .next { State.reset with result := .u8 0x80 } :=
  ⟨rfl, rfl, rfl, rfl, rfl, rfl, rfl, rfl, rfl⟩
theorem test_fields_float :
    exec (.recLatitude imageA) State.reset = .next { State.reset with result := .f64 0x40443558E219652C } ∧
    exec (.recLongitude imageA) State.reset = .next { State.reset with result := .f64 0xC00DA15CA6CA03C5 } ∧
    exec (.recHeading imageA) State.reset = .next { State.reset with result := .f32 0x3FC00000 } ∧
    exec (.recCovPos imageA) State.reset = .next { State.reset with result := .f32 0x3E800000 } := ⟨rfl, rfl, rfl, rfl⟩
/-- V20, S3: ENCODE gives image A back, with its padding. -/
theorem test_encodeRecord : encodeRecord recordA 0xAA 0x55 = imageA := rfl

/-! ### Witnesses: for every statement with hypotheses, values that meet them all, clause by clause -/

theorem witness_ResetValuesAndStartAfterReset :
    (idle .failed 200).active = false ∧ exec .reset (idle .failed 200) = .next State.reset := ⟨rfl, rfl⟩

theorem witness_StartBeginsASessionOrIsIgnored :
    (idle .failed 200).active = false ∧ (sess .streaming 1000 [] [0x41]).active = true := ⟨rfl, rfl⟩

theorem witness_StopTearsDownSilently :
    (sess .streaming 1000 [] [0xFF]).active = true ∧ (idle .streaming 1000).active = false := ⟨rfl, rfl⟩

theorem witness_ClosedRaisesTransportClosed :
    (sess .streaming 0 [] []).active = true ∧ (sess .configSent 0 [] []).active = true ∧
    (idle .failed 0).active = false := ⟨rfl, rfl, rfl⟩

theorem witness_IdleEventsChangeNothing :
    (idle .configSent 5).active = false ∧ Instr.send ∈ [Instr.rx 0xFF, .rxIdle 0xFF, .tick, .tickIdle, .stop,
      .stopIdle, .closed, .closedIdle, .send, .sendOther] := by decide

theorem witness_SendWritesThePendingString :
    ((sess .configSent 999 [] []).active = true ∧ (sess .configSent 999 [] []).hs = .configSent) ∧
    ((sess .runSent 199 [] []).active = true ∧ (sess .runSent 199 [] []).hs = .runSent) := by decide

/-- Both ways out of the write states: another state, and no session. -/
theorem witness_SendElsewhereChangesNothing :
    ∀ s ∈ [sess .awaitingFirstAck 0 [] [], sess .failed 0 [] [], idle .configSent 0, idle .runSent 0],
      ¬ (s.active = true ∧ (s.hs = .configSent ∨ s.hs = .runSent)) := by decide

theorem witness_RxInWriteStateIsHeld :
    ((sess .configSent 0 [] []).active = true ∧ (sess .configSent 0 [] []).hs = .configSent) ∧
    ((sess .runSent 0 [] []).active = true ∧ (sess .runSent 0 [] []).hs = .runSent) := by decide

/-- What is kept of a push, as the statements about RX in a text state write it. -/
abbrev pushed (txt : List Byte) (b : Byte) : List Byte := (txt ++ [b]).drop (txt.length + 1 - Config.textWindow)

/-- What a text of a few bytes keeps of a push is all of it. -/
theorem push_short {txt : List Byte} (b : Byte) (h : txt.length + 1 ≤ 500) : pushed txt b = txt ++ [b] := by
  have : txt.length + 1 - Config.textWindow = 0 := Nat.sub_eq_zero_of_le h
  rw [pushed, this, List.drop_zero]

/-- What a full window keeps of a push is all but its oldest byte. -/
theorem push_full {txt : List Byte} (b : Byte) (h : txt.length = 500) :
    pushed txt b = txt.drop 1 ++ [b] := by
  have : txt.length + 1 - Config.textWindow = 1 := by rw [h]; rfl
  rw [pushed, this, List.drop_append_of_le_length (by omega)]

/-- A text of 500 bytes, the first of them old, the last the beginning of a marker. -/
def fullText (m : List Byte) : List Byte := List.replicate (501 - m.length) 0x78 ++ m.dropLast

/-- The sixteenth byte of the marker on a short and on a full text, and a byte that is not it. -/
theorem witness_RxInDetectingInit :
    (sess .detectingInit 999 [] []).active = true ∧ (sess .detectingInit 999 [] []).hs = .detectingInit ∧
    Config.markNotInit <:+: pushed Config.markNotInit.dropLast 0x44 ∧
    Config.markNotInit <:+: pushed (fullText Config.markNotInit) 0x44 ∧
    ¬ Config.markNotInit <:+: pushed Config.markNotInit.dropLast 0x45 := by
  refine ⟨rfl, rfl, ?_, ?_, ?_⟩
  · rw [push_short _ (by decide)]; exact ⟨[], [], rfl⟩
  · rw [push_full _ (by simp only [fullText, List.length_append, List.length_replicate]; decide)]
    refine ⟨(List.replicate 485 0x78).drop 1, [], ?_⟩
    rw [fullText, List.drop_append_of_le_length (by simp only [List.length_replicate]; decide), List.append_nil,
      List.append_assoc]
    rfl
  · rw [push_short _ (by decide), ← contains_eq_false_iff]; rfl

/-- `##O` then `K`, a full text, and the letter of the wrong case. -/
theorem witness_RxInAwaitingFirstAck :
    (sess .awaitingFirstAck 199 [] []).active = true ∧ (sess .awaitingFirstAck 199 [] []).hs = .awaitingFirstAck ∧
    Config.markOk <:+: pushed [0x23, 0x23, 0x4F] 0x4B ∧
    Config.markOk <:+: pushed (fullText Config.markOk) 0x4B ∧
    ¬ Config.markOk <:+: pushed [0x23, 0x4F] 0x6B := by
  refine ⟨rfl, rfl, ?_, ?_, ?_⟩
  · rw [push_short _ (by decide)]; exact ⟨[0x23], [], rfl⟩
  · rw [push_full _ (by simp only [fullText, List.length_append, List.length_replicate]; decide)]
    refine ⟨(List.replicate 498 0x78).drop 1, [], ?_⟩
    rw [fullText, List.drop_append_of_le_length (by simp only [List.length_replicate]; decide), List.append_nil,
      List.append_assoc]
    rfl
  · rw [push_short _ (by decide), ← contains_eq_false_iff]; rfl

theorem witness_RxInAwaitingSecondAck :
    (sess .awaitingSecondAck 0 [] []).active = true ∧ (sess .awaitingSecondAck 0 [] []).hs = .awaitingSecondAck ∧
    Config.markOk <:+: pushed [0x23, 0x4F] 0x4B ∧
    ¬ Config.markOk <:+: pushed [] 0xFF := by
  refine ⟨rfl, rfl, ?_, ?_⟩
  · rw [push_short _ (by decide)]; exact ⟨[], [], rfl⟩
  · rw [push_short _ (by decide), ← contains_eq_false_iff]; rfl

/-- The tick that ends the window, the one before it, and the wrap of ten bits, which no run reaches. -/
theorem witness_TickInDetectingInit :
    (sess .detectingInit 999 [] []).active = true ∧ (sess .detectingInit 999 [] []).hs = .detectingInit ∧
    (sess .detectingInit 999 [] []).timer + 1 = Config.detectWindow ∧ (sess .detectingInit 998 [] []).timer + 1 ≠ Config.detectWindow ∧
    (sess .detectingInit 1023 [] []).timer + 1 ≠ Config.detectWindow := by decide

theorem witness_TickInAcknowledgementStates :
    (sess .awaitingFirstAck 199 [] []).active = true ∧
    ((sess .awaitingFirstAck 199 [] []).hs = .awaitingFirstAck ∧ (sess .awaitingFirstAck 199 [] []).timer + 1 = Config.ackTimeout) ∧
    ((sess .awaitingSecondAck 198 [] []).hs = .awaitingSecondAck ∧
      (sess .awaitingSecondAck 198 [] []).timer + 1 ≠ Config.ackTimeout) := by decide

theorem witness_TickOutsideTextStatesIsIgnored :
    (sess .configSent 199 [] []).hs = .configSent ∧ (sess .configSent 199 [] []).active = true ∧
    (sess .runSent 199 [] []).hs = .runSent ∧ (sess .runSent 199 [] []).active = true ∧
    (sess .streaming 999 [] []).hs = .streaming ∧ (sess .streaming 999 [] []).active = true ∧
    (idle .failed 200).hs = .failed := by decide

/-- An invariant state of DetectingInit one byte before the marker, one tick before the window's end. -/
theorem inv_detecting : Inv (sess .detectingInit 999 Config.markNotInit.dropLast []) where
  txt_window := Nat.le_of_ble_eq_true rfl
  txt_only_text := fun _ => ⟨rfl, rfl⟩
  buf_only_streaming := fun h => absurd rfl h
  buf_drained := rfl
  no_marker := by rintro m ⟨⟩; rw [← contains_eq_false_iff]; rfl
  timer_window := by rintro - w ⟨⟩; exact Nat.le_of_ble_eq_true rfl
  failed_idle := by rintro ⟨⟩
  err_none := fun _ => rfl
  timer_bound := Nat.le_of_ble_eq_true rfl
  noise := by rintro off ⟨⟩

/-- An invariant streaming state, for a drained buffer with bounded noise. -/
theorem inv_streaming {buf : List Byte} (h : drained buf = true) (hn : NoiseBounded buf) :
    Inv (sess .streaming 0 [] buf) where
  txt_window := Nat.zero_le _
  txt_only_text := fun hx => absurd rfl hx
  buf_only_streaming := fun _ => ⟨rfl, rfl⟩
  buf_drained := h
  no_marker := by rintro m ⟨⟩
  timer_window := by rintro - w ⟨⟩
  failed_idle := by rintro ⟨⟩
  err_none := fun _ => rfl
  timer_bound := Nat.zero_le _
  noise := hn

/-- Bytes without a sentinel, up to the soft bound. -/
theorem quiet_buffer {n : Nat} (h : n ≤ Config.bufSoftBound) :
    find Config.sentinel (List.replicate n 0x41) = none ∧ drained (List.replicate n 0x41) = true ∧
    NoiseBounded (List.replicate n 0x41) := by
  have hf : find Config.sentinel (List.replicate n 0x41) = none := by
    rw [find_eq_none_iff, List.mem_replicate]; rintro ⟨-, ⟨⟩⟩
  refine ⟨hf, ?_, ?_⟩
  · rw [drained_iff, scan_eq_noSentinel_iff, List.length_replicate]; exact .inl ⟨hf, h⟩
  · intro off ho; rw [hf] at ho; cases ho

/-- The byte that ends the marker, and one that does not. -/
theorem witness_MarkerIsSeenByTheByteThatEndsIt :
    Inv (sess .detectingInit 999 Config.markNotInit.dropLast []) ∧
    (sess .detectingInit 999 Config.markNotInit.dropLast []).active = true ∧
    awaitedMarker (sess .detectingInit 999 Config.markNotInit.dropLast []).hs = some Config.markNotInit ∧
    exec (.rx 0x44) (sess .detectingInit 999 Config.markNotInit.dropLast []) = .next (sess .configSent 999 [] []) ∧
    exec (.rx 0x45) (sess .detectingInit 999 Config.markNotInit.dropLast []) =
      .next (sess .detectingInit 999 (Config.markNotInit.dropLast ++ [0x45]) []) := ⟨inv_detecting, rfl, rfl, rfl, rfl⟩

theorem witness_MarkersActWhereAwaited :
    ((sess .detectingInit 0 Config.markNotInit []).hs = .detectingInit ∧
      Config.markNotInit <:+: (sess .detectingInit 0 Config.markNotInit []).txt) ∧
    ¬ ((sess .awaitingFirstAck 0 Config.markNotInit []).active = true ∧
      (sess .awaitingFirstAck 0 Config.markNotInit []).hs = .detectingInit ∧
      Config.markNotInit <:+: (sess .awaitingFirstAck 0 Config.markNotInit []).txt) ∧
    ((sess .awaitingFirstAck 0 Config.markOk []).hs = .awaitingFirstAck ∧
      Config.markOk <:+: (sess .awaitingFirstAck 0 Config.markOk []).txt) ∧
    ((sess .awaitingSecondAck 0 Config.markOk []).hs = .awaitingSecondAck ∧
      Config.markOk <:+: (sess .awaitingSecondAck 0 Config.markOk []).txt) ∧
    ¬ ((sess .detectingInit 0 Config.markOk []).active = true ∧
      ((sess .detectingInit 0 Config.markOk []).hs = .awaitingFirstAck ∨
        (sess .detectingInit 0 Config.markOk []).hs = .awaitingSecondAck) ∧
      Config.markOk <:+: (sess .detectingInit 0 Config.markOk []).txt) := by
  refine ⟨⟨rfl, [], [], rfl⟩, ?_, ⟨rfl, [], [], rfl⟩, ⟨rfl, [], [], rfl⟩, ?_⟩
  · rintro ⟨-, ⟨⟩, -⟩
  · rintro ⟨-, h | h, -⟩ <;> cases h

theorem witness_StringsAreWrittenWhereDue :
    ((sess .configSent 0 [] []).active = true ∧ (sess .configSent 0 [] []).hs = .configSent) ∧
    ¬ ((idle .configSent 0).active = true ∧ (idle .configSent 0).hs = .configSent) ∧
    ((sess .runSent 0 [] []).active = true ∧ (sess .runSent 0 [] []).hs = .runSent) ∧
    ¬ ((sess .awaitingSecondAck 0 [] []).active = true ∧ (sess .awaitingSecondAck 0 [] []).hs = .runSent) := by decide

/-- No tick at 999 of 1000, the last tick at 999 of 1000, and the last tick at 199 of 200. -/
theorem witness_TicksEndAWaitExactlyAtItsWindow :
    (sess .detectingInit 999 [] []).active = true ∧
    tickWindow (sess .detectingInit 999 [] []).hs = some 1000 ∧
    (sess .detectingInit 999 [] []).timer.toNat < (1000 : Ticks).toNat ∧
    (sess .detectingInit 999 [] []).timer.toNat + 0 < (1000 : Ticks).toNat ∧
    (sess .detectingInit 999 [] []).timer.toNat + 1 = (1000 : Ticks).toNat ∧
    tickWindow (sess .awaitingFirstAck 199 [] []).hs = some 200 ∧
    (sess .awaitingFirstAck 199 [] []).timer.toNat + 1 = (200 : Ticks).toNat ∧
    (sess .awaitingFirstAck 199 [] []).hs ≠ .detectingInit :=
  ⟨rfl, rfl, Nat.le_of_ble_eq_true rfl, Nat.le_of_ble_eq_true rfl, rfl, rfl, rfl, by decide⟩

/-- A buffer of 1280 bytes, the most that stands between two bytes (R175). -/
theorem witness_RxInStreamingIsFeed :
    (sess .streaming 0 [] (List.replicate 1280 0x41)).active = true ∧
    (sess .streaming 0 [] (List.replicate 1280 0x41)).hs = .streaming ∧
    (sess .streaming 0 [] (List.replicate 1280 0x41)).buf.length + 1 ≤ Config.bufCap := by
  refine ⟨rfl, rfl, ?_⟩
  simp only [sess, List.length_replicate]
  exact Nat.le_add_right _ _

theorem witness_FeedFollowsTheExtractionLoop :
    (sess .streaming 0 [] []).active = true ∧ (sess .streaming 0 [] []).hs = .streaming ∧
    (sess .streaming 0 [] []).buf.length + (List.replicate Config.bufCap (0x41 : Byte)).length ≤ Config.bufCap := by
  refine ⟨rfl, rfl, ?_⟩
  simp only [sess, List.length_replicate, List.length_nil]
  exact Nat.le_of_eq (Nat.zero_add _)

/-- One byte past the capacity; another state; no session. -/
theorem witness_FeedPastCapacityIsRefused :
    ((sess .streaming 0 [] [0xFF]).active = true ∧ (sess .streaming 0 [] [0xFF]).hs = .streaming ∧
      Config.bufCap < (sess .streaming 0 [] [0xFF]).buf.length +
        (List.replicate Config.bufCap (0x41 : Byte)).length) ∧
    ¬ ((sess .detectingInit 0 [] []).active = true ∧ (sess .detectingInit 0 [] []).hs = .streaming) ∧
    ¬ ((idle .streaming 0).active = true ∧ (idle .streaming 0).hs = .streaming) := by
  refine ⟨⟨rfl, rfl, ?_⟩, by decide, by decide⟩
  simp only [sess, List.length_replicate, List.length_cons, List.length_nil]
  omega

theorem witness_ByteSerialEqualsWholeChunk :
    (sess .streaming 0 [] [0x41, 0xFF]).active = true ∧ (sess .streaming 0 [] [0x41, 0xFF]).hs = .streaming ∧
    drained (sess .streaming 0 [] [0x41, 0xFF]).buf = true ∧
    (sess .streaming 0 [] [0x41, 0xFF]).buf.length + ([0x03, 0x01, 0x00] : List Byte).length ≤ Config.bufCap := by
  refine ⟨rfl, rfl, rfl, ?_⟩
  have : 1281 ≤ Config.bufCap := Nat.le_add_right _ _
  simp only [sess, List.length_cons, List.length_nil]
  omega

theorem witness_NoiseNeverChangesAnEvent : find Config.sentinel [0x41, 0x42, 0x00] = none := rfl

/-- The fullest buffer without a sentinel; then a sentinel is taken, and then an ordinary byte. -/
theorem witness_OccupancyIsBounded :
    Inv (sess .streaming 0 [] (List.replicate 1024 0x41)) ∧
    Inv (sess .streaming 0 [] []) ∧
    exec (.rx 0xFF) (sess .streaming 0 [] []) = .next (sess .streaming 0 [] [0xFF]) ∧
    find Config.sentinel (sess .streaming 0 [] [0xFF]).buf = some 0 ∧
    exec (.rx 0x41) (sess .streaming 0 [] []) = .next (sess .streaming 0 [] [0x41]) ∧
    find Config.sentinel (sess .streaming 0 [] [0x41]).buf = none :=
  ⟨inv_streaming (quiet_buffer (Nat.le_of_ble_eq_true rfl)).2.1 (quiet_buffer (Nat.le_of_ble_eq_true rfl)).2.2,
    inv_streaming rfl (by rintro off ⟨⟩), rfl, rfl, rfl, rfl⟩

/-- The byte that completes a frame with an event, the byte that completes a silent one behind noise, and a byte that
completes none. -/
theorem witness_OneRxEmitsAtMostOneEvent :
    Inv (sess .streaming 0 [] (frameA.take 44)) ∧ (sess .streaming 0 [] (frameA.take 44)).active = true ∧
    (sess .streaming 0 [] (frameA.take 44)).hs = .streaming ∧
    scan ((sess .streaming 0 [] (frameA.take 44)).buf ++ [0x8F]) = .complete 0 45 ∧
    Inv (sess .streaming 0 [] [0x41, 0xFF]) ∧
    scan ((sess .streaming 0 [] [0x41, 0xFF]).buf ++ [0x00]) = .complete 1 2 ∧
    (∀ off total, scan ((sess .streaming 0 [] [0x41, 0xFF]).buf ++ [0x01]) ≠ .complete off total) ∧
    find Config.sentinel ((sess .streaming 0 [] [0x41, 0xFF]).buf ++ [0x01]) ≠ none :=
  ⟨inv_streaming rfl (by rintro off ⟨⟩; exact Nat.zero_le _), rfl, rfl, rfl,
    inv_streaming rfl (by rintro off ⟨⟩; exact Nat.le_of_ble_eq_true rfl), rfl, by rintro off total ⟨⟩,
    by rintro ⟨⟩⟩

/-- A wrong pair, 39 bytes of record data, 40 bytes, each behind one byte of noise. -/
theorem witness_FrameStatusOutcome :
    find Config.sentinel [0x41] = none ∧ (imageB.take 39).length ≤ 252 ∧
    (sess .streaming 0 [] ([0x41] ++ (Config.sentinel :: BitVec.ofNat 8 (imageB.length + 3) :: 1 ::
      (imageB ++ [0x03, 0xB5])) ++ [0x42])).buf =
      [0x41] ++ (Config.sentinel :: BitVec.ofNat 8 (imageB.length + 3) :: 1 :: (imageB ++ [0x03, 0xB5])) ++ [0x42] ∧
    (1 + byteSum []) % 65536 ≠ (0x00 : Byte).toNat * 256 + (0x02 : Byte).toNat ∧
    ((1 + byteSum (imageB.take 39)) % 65536 = (0x03 : Byte).toNat * 256 + (0xB5 : Byte).toNat ∧
      (imageB.take 39).length < 40) ∧
    ((1 + byteSum imageB) % 65536 = (0x03 : Byte).toNat * 256 + (0xB5 : Byte).toNat ∧ 40 ≤ imageB.length) := by
  refine ⟨rfl, by decide, rfl, by decide, ⟨rfl, by decide⟩, rfl, by decide⟩

theorem witness_OtherFramesAreDroppedSilently :
    find Config.sentinel [0x41] = none ∧ (0x00 : Byte) ≠ 1 ∧ (0x02 : Byte) ≠ 1 ∧
    (List.replicate 252 (0xFF : Byte)).length ≤ 252 ∧ ([] : List Byte).length ≤ 2 ∧
    ([0x01, 0x00] : List Byte).length ≤ 2 ∧
    (sess .streaming 0 [] [0x41, 0xFF, 0x00, 0xFF]).buf =
      [0x41] ++ (Config.sentinel :: BitVec.ofNat 8 ([] : List Byte).length :: []) ++ [0xFF] ∧
    (sess .streaming 0 [] [0x41, 0xFF, 0x03, 0x02, 0x00, 0x00]).buf =
      [0x41] ++ (Config.sentinel :: BitVec.ofNat 8 (([] : List Byte).length + 3) :: 2 :: ([] ++ [0x00, 0x00])) ++ [] := by
  refine ⟨rfl, by decide, by decide, ?_, by decide, by decide, rfl, rfl⟩
  simp only [List.length_replicate]; decide

theorem witness_FrameClassesPartitionAllFrames :
    (([0x01, 0x00] : List Byte).length ≤ 255 ∧ ([0x01, 0x00] : List Byte).length < 3) ∧
    (3 ≤ ([0x01, 0x00, 0x01] : List Byte).length) ∧
    (3 ≤ (List.replicate 255 (0x00 : Byte)).length ∧ (List.replicate 255 (0x00 : Byte)).length ≤ 255) := by
  refine ⟨by decide, by decide, ?_⟩
  simp only [List.length_replicate]; decide

theorem witness_GoodStreamGivesItsRecordsInOrder :
    find Config.sentinel [0x0A] = none ∧ [imageB, List.replicate 252 0xFF] ≠ [] ∧
    ∀ r ∈ [imageB, List.replicate 252 0xFF], 40 ≤ r.length ∧ r.length ≤ 252 := by
  refine ⟨rfl, List.cons_ne_nil _ _, ?_⟩
  intro r hr
  rcases List.mem_cons.1 hr with rfl | hr
  · decide
  · rw [List.mem_singleton.1 hr]
    simp only [List.length_replicate]
    decide

theorem witness_ChecksumLaws :
    ([0x01, 0x02] : List Byte).Perm [0x02, 0x01] ∧ (List.replicate 253 (0xFF : Byte)).length ≤ 253 := by
  refine ⟨List.Perm.swap _ _ _, ?_⟩
  simp only [List.length_replicate]; decide

theorem witness_ChecksumDetectsOneChange :
    validate [0x01] 0x00 0x01 = true ∧ ((0x00, 0x00) : Byte × Byte) ≠ (0x00, 0x01) ∧
    validate ([] ++ [0x01] ++ [0xFF]) 0x01 0x00 = true ∧ (0x01 : Byte) ≠ 0x00 := by decide

theorem witness_DecodeGivesTheTwelveFields : (imageA.take 39).length < 40 ∧ 40 ≤ imageA.length := by decide

theorem witness_SmallRecordFields : 40 ≤ imageA.length := by decide

theorem witness_FloatRecordFieldsAreBitPatterns : 40 ≤ imageSpecial.length := by decide

theorem witness_NoFieldOfAShortRecord : (imageB.take 39).length < 40 := by decide

theorem witness_SurplusAndPaddingDoNotMatter : 40 ≤ imageB.length ∧ (imageA.take 6).length = 6 := by decide

/-- The ends of the `i16` range among the fields. -/
theorem witness_EncodeAndDecodeRoundTrip :
    recordA.inRange = true ∧ { recordA with speedX := 32767 }.inRange = true ∧ 40 ≤ imageA.length := by decide

theorem witness_FixedPointFieldsDenoteThousandths :
    decodeRecord imageA = .ok recordA ∧ -32768 ∈ [recordA.speedX, recordA.speedY, recordA.rotSpeed] :=
  ⟨rfl, by decide⟩

theorem witness_DecodeOfEncodeIsTheInstruction :
    WellFormed (.rxStreaming 0xFF) = true ∧ encode (.rxStreaming 0xFF) = some (.dispatch 0x6DFF) ∧
    WellFormed (.frameStatus [] 0x00 0x01) = true ∧
    encode (.frameStatus [] 0x00 0x01) = some (.frame [0xFF, 0x03, 0x01, 0x00, 0x01]) := by decide

theorem witness_DecodeYieldsWellFormed : decode (.frame [0xFF, 0x02, 0x01, 0x01]) = .ok (.frameShort [0x01, 0x01]) := by
  decide

theorem witness_DecodedFrameKeepsEveryByte :
    decodeFrame [0xFF, 0x03, 0x01, 0x00, 0x01, 0x43] = .ok (.status [] 0x00 0x01, [0x43]) := by decide

/-- The second clause: TICK and RX with `active = 1` and Failed; the first: SEND in the same state. -/
theorem witness_SelectedLineIsTheReaction :
    ((sess .failed 0 [] []).active = true ∧ (sess .failed 0 [] []).hs = .failed ∧
      decodeEvent 0x400 = .tick ∧ decodeEvent 0x523 = .rx 0x23) ∧
    ¬ ((sess .failed 0 [] []).active = true ∧ (sess .failed 0 [] []).hs = .failed ∧
      (decodeEvent 0x600 = .tick ∨ ∃ b, decodeEvent 0x600 = .rx b)) := by
  refine ⟨by decide, ?_⟩
  rintro ⟨-, -, h | ⟨b, h⟩⟩ <;> cases h

/-- A held byte to deliver; a write pending with a held byte and an event to come; nothing to come. -/
theorem witness_StepRunsTheDecodedEvent :
    (¬ ((sess .awaitingFirstAck 0 [] []).active = true ∧ ((sess .awaitingFirstAck 0 [] []).hs = .configSent ∨
      (sess .awaitingFirstAck 0 [] []).hs = .runSent)) ∧
      { sess .awaitingFirstAck 0 [] [] with held := [0x0A] }.held = 0x0A :: []) ∧
    ((sess .configSent 0 [] []).active = true ∧ (sess .configSent 0 [] []).hs = .configSent ∧
      { sess .configSent 0 [] [] with held := [0x0A], inbox := [0x600] }.inbox = 0x600 :: []) ∧
    (State.reset.held = [] ∧ State.reset.inbox = []) := by decide

theorem witness_EveryStepKeepsTheInvariants :
    Inv (sess .detectingInit 999 Config.markNotInit.dropLast []) ∧
    step (sess .detectingInit 999 Config.markNotInit.dropLast []) =
      .next (sess .detectingInit 999 Config.markNotInit.dropLast []) ∧
    Inv { sess .streaming 0 [] (frameA.take 44) with inbox := [rxWord 0x8F] } ∧
    step { sess .streaming 0 [] (frameA.take 44) with inbox := [rxWord 0x8F] } =
      .next { sess .streaming 0 [] [] with out := [.record recordA] } := by
  have h := inv_streaming (buf := frameA.take 44) rfl (by rintro off ⟨⟩; exact Nat.zero_le _)
  exact ⟨inv_detecting, rfl,
    ⟨h.txt_window, h.txt_only_text, h.buf_only_streaming, h.buf_drained, h.no_marker, h.timer_window, h.failed_idle,
      h.err_none, h.timer_bound, h.noise⟩, rfl⟩

theorem witness_HandshakeChangesOnlyByTheTable :
    exec (decodeEvent 0x400) (sess .detectingInit 999 [] []) =
      .next { sess .streaming 1000 [] [] with out := [.status .connected] } ∧
    HandshakeState.streaming ≠ .detectingInit := ⟨rfl, by decide⟩

/-- Each element changed: START, TICK, CLOSED, the TICK that expires a wait, RX in a text state, RX in Streaming. -/
theorem witness_EachElementHasItsWriters :
    exec (decodeEvent 0x100) (idle .failed 200) = .next (sess .detectingInit 0 [] []) ∧
    exec (decodeEvent 0x400) (sess .detectingInit 0 [] []) = .next (sess .detectingInit 1 [] []) ∧
    exec (decodeEvent 0x300) (sess .runSent 0 [] []) =
      .next { idle .failed 0 with err := .transportClosed, out := [.status .transportClosed] } ∧
    exec (decodeEvent 0x400) (sess .awaitingSecondAck 199 [] []) =
      .next { idle .failed 200 with err := .handshakeTimeout, out := [.status .handshakeTimeout] } ∧
    exec (decodeEvent 0x541) (sess .detectingInit 0 [] []) = .next (sess .detectingInit 0 [0x41] []) ∧
    exec (decodeEvent 0x541) (sess .streaming 0 [] []) = .next (sess .streaming 0 [] [0x41]) :=
  ⟨rfl, rfl, rfl, rfl, rfl, rfl⟩

theorem witness_OutputsComeWhereTheRulesSay :
    exec (decodeEvent 0x600) (sess .runSent 0 [] []) =
      .next { sess .awaitingSecondAck 0 [] [] with out := [.tx Config.runStr] } := rfl

/-- A session ended by STOP and by CLOSED; START while none exists. -/
theorem witness_SessionsEndOnce :
    exec (decodeEvent 0x200) (sess .streaming 0 [] [0xFF]) = .next (idle .streaming 0) ∧
    exec (decodeEvent 0x300) (sess .streaming 0 [] [0xFF]) =
      .next { idle .streaming 0 with err := .transportClosed, out := [.status .transportClosed] } ∧
    exec (decodeEvent 0x100) (idle .streaming 0) = .next (sess .detectingInit 0 [] []) := ⟨rfl, rfl, rfl⟩

theorem witness_UnselectedLinesChangeNothing :
    (sess .streaming 0 [] []).active = true ∧ (idle .streaming 0).active = false ∧
    ¬ ((sess .streaming 0 [] []).active = true ∧ (sess .streaming 0 [] []).hs = .configSent) ∧
    ¬ ((idle .streaming 0).active = true ∧ (idle .streaming 0).hs = .streaming) ∧
    ((sess .runSent 0 [] []).active = true ∧ (sess .runSent 0 [] []).hs = .runSent) ∧
    ¬ ((sess .streaming 0 [] [0xFF, 0x00]).active = true ∧ (sess .streaming 0 [] [0xFF, 0x00]).hs = .streaming ∧
      nextFrame (sess .streaming 0 [] [0xFF, 0x00]).buf = some (.short [0x00])) := by decide

end Sys2Proof.Tests
end

section
/-! PROOF. Which event a step takes, and that every step answers a next state (spec R7, R15, R218). -/

namespace Sys2Proof.Machine

/-! ### The event taken next -/

theorem rxHeld_eq_true_iff (s : State) :
    s.rxHeld = true ↔ s.active = true ∧ (s.hs = .configSent ∨ s.hs = .runSent) :=
  writePending_eq_true_iff s

theorem popInbox_of_cons {s : State} {w : EventWord} {ws : List EventWord} (h : s.inbox = w :: ws) :
    popInbox s = some (w, s.setInbox ws) := by
  simp [popInbox, h]

theorem popInbox_of_nil {s : State} (h : s.inbox = []) : popInbox s = none := by
  simp [popInbox, h]

/-- The oldest waiting byte comes before the list of events as soon as RX is not held (spec R218; log 3). -/
theorem fetch_of_held {s : State} {b : Byte} {bs : List Byte} (hr : ¬ s.rxHeld = true) (hh : s.held = b :: bs) :
    fetch s = some (rxWord b, s.setHeld bs) := by
  simp [fetch, hr, hh]

theorem fetch_eq_popInbox {s : State} (h : s.rxHeld = true ∨ s.held = []) : fetch s = popInbox s := by
  rcases h with hr | hh
  · simp [fetch, hr]
  · simp [fetch, hh]

/-! ### Input events always answer -/

/-- The meaning of each of the eight input events is a next state: none faults, none is refused (spec R85, R270). -/
theorem exec_decodeEvent_answers (w : EventWord) (s : State) : ∃ t, exec (decodeEvent w) s = .next t := by
  rcases decodeEvent_cases w with h | h | h | h | h | ⟨b, h⟩ | h | h
  all_goals
    rw [h]
    exact ⟨_, rfl⟩

/-! ### The obligations -/

/-- Settles O51: `fetch` takes the waiting byte or the list's event in the very cases the statement names. -/
theorem stepRunsTheDecodedEvent : Obligations.StepRunsTheDecodedEvent := by
  intro s
  rw [← rxHeld_eq_true_iff]
  refine ⟨fun b bs hr hh => ?_, fun h => ⟨fun w ws hw => ?_, fun hnil => ?_⟩⟩
  · calc step s = exec (decodeEvent (rxWord b)) (s.setHeld bs) := step_of_fetch (fetch_of_held hr hh)
      _ = exec (.rx b) { s with held := bs } := by rw [decodeEvent_rxWord]; rfl
  · exact step_of_fetch ((fetch_eq_popInbox h).trans (popInbox_of_cons hw))
  · exact step_of_nothing ((fetch_eq_popInbox h).trans (popInbox_of_nil hnil))

/-- Settles O52: a step runs the input event it takes, which answers; with none to take it waits (log 5). -/
theorem everyStepAnswersANextState : Obligations.EveryStepAnswersANextState := by
  intro s
  rcases hf : fetch s with _ | ⟨w, s'⟩
  · exact ⟨s, step_of_nothing hf⟩
  · rw [step_of_fetch hf]
    exact exec_decodeEvent_answers w s'

end Sys2Proof.Machine
end

section
/-! PROOF. What the reaction to an input event can be (spec R97, R200 to R250, R310), that every step keeps the
invariants of spec R33, and which events write which state element (spec R20 to R26). -/

namespace Sys2Proof.Machine

/-! ### The reactions to an event -/

/-- `Reaction s e t`: the event `e` may take `s` to `t`. One constructor for each way an input event can change the
state, with the condition it needs, and one for the events that change nothing. -/
inductive Reaction (s : State) : Instr → State → Prop where
  /-- the event is ignored, or SEND is not enabled (spec R15, R98, R206, R217, R247) -/
  | ignored (e : Instr) : Reaction s e s
  /-- RESET (spec R310) -/
  | reset : Reaction s .reset
      { s with active := false, hs := .detectingInit, timer := 0, err := .none, txt := [], buf := [] }
  /-- START where there is no session (spec R240) -/
  | start : s.active = false → Reaction s .start
      { s with active := true, hs := .detectingInit, timer := 0, err := .none, txt := [], buf := [] }
  /-- STOP of a session (spec R241) -/
  | stop : s.active = true → Reaction s .stop { s with active := false, txt := [], buf := [] }
  /-- CLOSED of a session (spec R242, R272) -/
  | closed : s.active = true → Reaction s .closed
      { s with active := false, hs := (if s.hs = .streaming then .streaming else .failed), err := .transportClosed,
               txt := [], buf := [], out := s.out ++ [.status .transportClosed] }
  /-- TICK within the window of a text state (spec R203, R209, R211) -/
  | tickCounted {w : Ticks} : s.active = true → tickWindow s.hs = some w → s.timer + 1 ≠ w →
      Reaction s .tick { s with timer := s.timer + 1 }
  /-- the TICK that ends the detection window (spec R203) -/
  | detectionEnds : s.active = true → s.hs = .detectingInit → s.timer + 1 = Config.detectWindow → Reaction s .tick
      { s with timer := s.timer + 1, hs := .streaming, txt := [], out := s.out ++ [.status .connected] }
  /-- the TICK that ends an acknowledgement window (spec R209, R211, R271) -/
  | ackExpires : s.active = true → (s.hs = .awaitingFirstAck ∨ s.hs = .awaitingSecondAck) →
      s.timer + 1 = Config.ackTimeout → Reaction s .tick
      { s with timer := s.timer + 1, active := false, hs := .failed, err := .handshakeTimeout, txt := [], buf := [],
               out := s.out ++ [.status .handshakeTimeout] }
  /-- RX in a text state, the marker not complete (spec R202, R208, R210) -/
  | textKept {m : List Byte} (b : Byte) : s.active = true → awaitedMarker s.hs = some m →
      ¬ m <:+: txtPush b s.txt → Reaction s (.rx b) { s with txt := txtPush b s.txt }
  /-- RX completes `#NOT_INITIALIZED` (spec R202) -/
  | notInitSeen (b : Byte) : s.active = true → s.hs = .detectingInit → Config.markNotInit <:+: txtPush b s.txt →
      Reaction s (.rx b) { s with hs := .configSent, txt := [] }
  /-- RX completes the first `#OK` (spec R208) -/
  | firstOkSeen (b : Byte) : s.active = true → s.hs = .awaitingFirstAck → Config.markOk <:+: txtPush b s.txt →
      Reaction s (.rx b) { s with hs := .runSent, txt := [] }
  /-- RX completes the second `#OK` (spec R210) -/
  | secondOkSeen (b : Byte) : s.active = true → s.hs = .awaitingSecondAck → Config.markOk <:+: txtPush b s.txt →
      Reaction s (.rx b) { s with hs := .streaming, txt := [], out := s.out ++ [.status .connected] }
  /-- RX in a write state (spec R218) -/
  | byteHeld (b : Byte) : s.active = true → (s.hs = .configSent ∨ s.hs = .runSent) →
      Reaction s (.rx b) { s with held := s.held ++ [b] }
  /-- RX in Streaming (spec R172) -/
  | fed (b : Byte) : s.active = true → s.hs = .streaming → Reaction s (.rx b) (feed [b] s)
  /-- SEND in ConfigSent (spec R204) -/
  | configWritten : s.active = true → s.hs = .configSent → Reaction s .send
      { s with out := s.out ++ [.tx Config.configStr], hs := .awaitingFirstAck, timer := 0, txt := [] }
  /-- SEND in RunSent (spec R205) -/
  | runWritten : s.active = true → s.hs = .runSent → Reaction s .send
      { s with out := s.out ++ [.tx Config.runStr], hs := .awaitingSecondAck, timer := 0, txt := [] }

theorem reaction_of_execStart {s t : State} (h : execStart s = .next t) : Reaction s .start t := by
  unfold execStart at h
  cases h
  split <;> rename_i ha
  · exact .ignored _
  · exact .start (Bool.eq_false_of_not_eq_true ha)

theorem reaction_of_execStop {s t : State} (h : execStop s = .next t) : Reaction s .stop t := by
  unfold execStop at h
  cases h
  split <;> rename_i ha
  · exact .stop ha
  · exact .ignored _

theorem reaction_of_execClosed {s t : State} (h : execClosed s = .next t) : Reaction s .closed t := by
  unfold execClosed at h
  cases h
  split <;> rename_i ha
  · exact .closed ha
  · exact .ignored _

/-- TICK in an acknowledgement state counts or expires the window. -/
theorem reaction_tickAck {s : State} (ha : s.active = true)
    (hs : s.hs = .awaitingFirstAck ∨ s.hs = .awaitingSecondAck) : Reaction s .tick (tickAck s) := by
  rcases tickAck_cases s with ⟨hw, heq⟩ | ⟨hw, heq⟩ <;> rw [heq]
  · exact .ackExpires ha hs hw
  · refine .tickCounted ha ?_ hw
    rcases hs with hs | hs <;> rw [hs] <;> rfl

theorem reaction_of_execTick {s t : State} (h : execTick s = .next t) : Reaction s .tick t := by
  unfold execTick at h
  cases h
  split
  · rename_i ha
    split
    · rename_i hs
      rcases tickDetecting_cases s with ⟨hw, heq⟩ | ⟨hw, heq⟩ <;> rw [heq]
      · exact .detectionEnds ha hs hw
      · exact .tickCounted ha (by rw [hs]; rfl) hw
    · exact .ignored _
    · rename_i hs
      exact reaction_tickAck ha (.inl hs)
    · exact .ignored _
    · rename_i hs
      exact reaction_tickAck ha (.inr hs)
    · exact .ignored _
    · exact .ignored _
  · exact .ignored _

theorem matchNotInit_setTxt (v : List Byte) (s : State) :
    matchNotInit (s.setTxt v) = { s with hs := .configSent, txt := [] } := rfl

theorem matchFirstOk_setTxt (v : List Byte) (s : State) :
    matchFirstOk (s.setTxt v) = { s with hs := .runSent, txt := [] } := rfl

theorem matchSecondOk_setTxt (v : List Byte) (s : State) :
    matchSecondOk (s.setTxt v) =
      { s with hs := .streaming, txt := [], out := s.out ++ [.status .connected] } := rfl

/-- RX in a text state keeps the byte, or the marker is complete and its own reaction follows. -/
theorem reaction_rxText {s : State} {m : List Byte} {matched : State → State} {b : Byte} (ha : s.active = true)
    (hm : awaitedMarker s.hs = some m)
    (hseen : m <:+: txtPush b s.txt → Reaction s (.rx b) (matched (s.setTxt (txtPush b s.txt)))) :
    Reaction s (.rx b) (rxText m matched b s) := by
  rcases rxText_cases m matched b s with ⟨h, heq⟩ | ⟨h, heq⟩ <;> rw [heq]
  · exact hseen h
  · exact .textKept b ha hm h

theorem reaction_of_execRx {s t : State} {b : Byte} (h : execRx b s = .next t) : Reaction s (.rx b) t := by
  unfold execRx at h
  cases h
  split
  · rename_i ha
    split <;> rename_i hs
    · exact reaction_rxText ha (by rw [hs]; rfl) fun h => by
        rw [matchNotInit_setTxt]
        exact .notInitSeen b ha hs h
    · exact .byteHeld b ha (.inl hs)
    · exact reaction_rxText ha (by rw [hs]; rfl) fun h => by
        rw [matchFirstOk_setTxt]
        exact .firstOkSeen b ha hs h
    · exact .byteHeld b ha (.inr hs)
    · exact reaction_rxText ha (by rw [hs]; rfl) fun h => by
        rw [matchSecondOk_setTxt]
        exact .secondOkSeen b ha hs h
    · exact .fed b ha hs
    · exact .ignored _
  · exact .ignored _

theorem reaction_of_execSend {s t : State} (h : execSend s = .next t) : Reaction s .send t := by
  unfold execSend at h
  cases h
  split
  · rename_i ha
    split
    · exact .ignored _
    · rename_i hs
      exact .configWritten ha hs
    · exact .ignored _
    · rename_i hs
      exact .runWritten ha hs
    · exact .ignored _
    · exact .ignored _
    · exact .ignored _
  · exact .ignored _

/-- What an input event answers is one of its reactions. -/
theorem reaction_of_exec {s t : State} {w : EventWord} (h : exec (decodeEvent w) s = .next t) :
    Reaction s (decodeEvent w) t := by
  rcases decodeEvent_cases w with he | he | he | he | he | ⟨b, he⟩ | he | he <;> rw [he] at h ⊢
  · cases h
    exact .reset
  · exact reaction_of_execStart h
  · exact reaction_of_execStop h
  · exact reaction_of_execClosed h
  · exact reaction_of_execTick h
  · exact reaction_of_execRx h
  · exact reaction_of_execSend h
  · cases h
    exact .ignored _

/-! ### The buffer when a byte is fed -/

/-- A frame that ends within the front part is complete there already. -/
theorem scan_complete_of_append {buf more : List Byte} {off total : Nat}
    (h : scan (buf ++ more) = .complete off total) (hin : off + total ≤ buf.length) :
    scan buf = .complete off total := by
  obtain ⟨hf, h2, ht, -⟩ := (scan_eq_complete_iff _ _ _).1 h
  have hfront : find Config.sentinel buf = some off := by
    cases hb : find Config.sentinel buf with
    | none =>
      rw [find_append_right _ hb, Option.map_eq_some_iff] at hf
      obtain ⟨i, -, hi⟩ := hf
      omega
    | some o => rw [← find_append_left more hb, hf]
  rw [byteAt_append_left _ (by omega)] at ht
  exact (scan_eq_complete_iff _ _ _).2 ⟨hfront, by omega, ht, by omega⟩

theorem not_complete_of_drained {buf : List Byte} (h : drained buf = true) (off total : Nat) :
    scan buf ≠ .complete off total := by
  rcases (drained_iff buf).1 h with ⟨hs, -⟩ | hs <;> rw [hs] <;> nofun

/-- In a drained buffer with bounded noise the next byte, if it brings the first sentinel, does so within the bound. -/
theorem noiseBounded_append_byte {buf : List Byte} (hd : drained buf = true) (hn : NoiseBounded buf) (b : Byte) :
    NoiseBounded (buf ++ [b]) := by
  intro off hf
  cases hb : find Config.sentinel buf with
  | some o =>
    rw [find_append_left _ hb] at hf
    exact hn off (hb.trans hf)
  | none =>
    have hlt := find_lt_length hf
    have hlen : buf.length ≤ Config.bufSoftBound := by simpa [drained, hb] using hd
    rw [List.length_append, List.length_singleton] at hlt
    omega

theorem noiseBounded_of_find_none {buf : List Byte} (h : find Config.sentinel buf = none) : NoiseBounded buf := by
  intro off hf
  rw [h] at hf
  cases hf

/-- One byte fed to a drained buffer keeps the noise bounded: a frame it completes ends with that byte, so nothing is
left behind the frame (spec R175). -/
theorem feedBuf_byte_noiseBounded {buf : List Byte} (hd : drained buf = true) (hn : NoiseBounded buf) (b : Byte) :
    NoiseBounded (feedBuf [b] buf).1 := by
  rw [feedBuf_eq]
  cases hs : scan (buf ++ [b]) with
  | noSentinel =>
    have hf := (scan_eq_noSentinel_iff _).1 hs
    rw [feedBuf_noSentinel hs]
    dsimp only
    split
    · exact noiseBounded_of_find_none (find_none_of_suffix (last_suffix _ _) hf)
    · exact noiseBounded_of_find_none hf
  | waiting =>
    rw [feedBuf_waiting hs]
    exact noiseBounded_append_byte hd hn b
  | complete off total =>
    have hbeyond : ¬ off + total ≤ buf.length := fun hin =>
      not_complete_of_drained hd off total (scan_complete_of_append hs hin)
    have hrest : (buf ++ [b]).drop (off + total) = [] := by
      rw [List.drop_eq_nil_iff, List.length_append, List.length_singleton]
      omega
    rw [feedBuf_complete hs, hrest]
    exact noiseBounded_of_find_none rfl

/-! ### The windows -/

/-- A tick that does not bring the count to its limit leaves it below; it does not wrap. -/
theorem toNat_succ_lt {x w : Ticks} (h : x.toNat < w.toNat) (hne : x + 1 ≠ w) : (x + 1).toNat < w.toNat := by
  bv_omega

theorem tickWindow_le_detectWindow {h : HandshakeState} {w : Ticks} (hw : tickWindow h = some w) :
    w.toNat ≤ Config.detectWindow.toNat := by
  cases h <;> cases hw <;> exact Nat.le_of_ble_eq_true rfl

theorem ackTimeout_le_detectWindow : Config.ackTimeout.toNat ≤ Config.detectWindow.toNat :=
  Nat.le_of_ble_eq_true rfl

/-- Every window is at least one tick long. -/
theorem zero_lt_tickWindow {h : HandshakeState} {w : Ticks} (hw : tickWindow h = some w) :
    (0 : Ticks).toNat < w.toNat := by
  cases h <;> cases hw <;> exact Nat.le_of_ble_eq_true rfl

theorem awaitedMarker_ne_nil {h : HandshakeState} {m : List Byte} (hm : awaitedMarker h = some m) : m ≠ [] := by
  cases h <;> cases hm <;> nofun

/-- A state that waits for a marker is a text state. -/
theorem isTextState_of_awaitedMarker {h : HandshakeState} {m : List Byte} (hm : awaitedMarker h = some m) :
    isTextState h = true := by
  cases h <;> cases hm <;> rfl

theorem isTextState_of_tickWindow {h : HandshakeState} {w : Ticks} (hw : tickWindow h = some w) :
    isTextState h = true := by
  cases h <;> cases hw <;> rfl

/-! ### The invariants -/

/-- With both memories empty only the clauses on `active`, `hs`, `timer` and `err` are left. -/
theorem inv_of_empty {s : State} (htxt : s.txt = []) (hbuf : s.buf = [])
    (htimer : s.active = true → ∀ w, tickWindow s.hs = some w → s.timer.toNat < w.toNat)
    (hfailed : s.hs = .failed → s.active = false) (herr : s.active = true → s.err = .none)
    (hbound : s.timer.toNat ≤ Config.detectWindow.toNat) : Inv s where
  txt_window := by rw [htxt]; exact Nat.zero_le _
  txt_only_text := fun h => absurd htxt h
  buf_only_streaming := fun h => absurd hbuf h
  buf_drained := by rw [hbuf]; exact drained_nil
  no_marker := fun m hm hin => by
    rw [htxt, List.infix_nil] at hin
    exact awaitedMarker_ne_nil hm hin
  timer_window := htimer
  failed_idle := hfailed
  err_none := herr
  timer_bound := hbound
  noise := by rw [hbuf]; exact noiseBounded_of_find_none rfl

/-- With no session and both memories empty only the bound of `timer` is left. -/
theorem inv_of_idle {s : State} (ha : s.active = false) (htxt : s.txt = []) (hbuf : s.buf = [])
    (hbound : s.timer.toNat ≤ Config.detectWindow.toNat) : Inv s := by
  have hno : ¬ s.active = true := by simp [ha]
  exact inv_of_empty htxt hbuf (fun h => absurd h hno) (fun _ => ha) (fun h => absurd h hno) hbound

namespace Inv

variable {s : State}

/-- The invariants say nothing of the bytes that wait outside the block. -/
theorem setHeld (h : Inv s) (v : List Byte) : Inv (s.setHeld v) where
  txt_window := h.txt_window
  txt_only_text := h.txt_only_text
  buf_only_streaming := h.buf_only_streaming
  buf_drained := h.buf_drained
  no_marker := h.no_marker
  timer_window := h.timer_window
  failed_idle := h.failed_idle
  err_none := h.err_none
  timer_bound := h.timer_bound
  noise := h.noise

/-- The invariants say nothing of the events to come. -/
theorem setInbox (h : Inv s) (v : List EventWord) : Inv (s.setInbox v) where
  txt_window := h.txt_window
  txt_only_text := h.txt_only_text
  buf_only_streaming := h.buf_only_streaming
  buf_drained := h.buf_drained
  no_marker := h.no_marker
  timer_window := h.timer_window
  failed_idle := h.failed_idle
  err_none := h.err_none
  timer_bound := h.timer_bound
  noise := h.noise

theorem buf_eq_nil (h : Inv s) (hs : s.hs ≠ .streaming) : s.buf = [] :=
  by_contra fun hne => hs (h.buf_only_streaming hne).2

/-- A tick within the window (spec R23, R33 vi). -/
theorem tickCounted (h : Inv s) {w : Ticks} (ha : s.active = true) (hw : tickWindow s.hs = some w)
    (hne : s.timer + 1 ≠ w) : Inv { s with timer := s.timer + 1 } := by
  have hlt : (s.timer + 1).toNat < w.toNat := toNat_succ_lt (h.timer_window ha w hw) hne
  exact { h with
    timer_window := fun _ v hv => by cases hw.symm.trans hv; exact hlt
    timer_bound := Nat.le_trans (Nat.le_of_lt hlt) (tickWindow_le_detectWindow hw) }

/-- A text within its window that does not hold the marker the session waits for (spec R33 i, ii, v). -/
theorem textKept (h : Inv s) {m txt : List Byte} (ha : s.active = true) (hm : awaitedMarker s.hs = some m)
    (hlen : txt.length ≤ Config.textWindow) (hno : ¬ m <:+: txt) : Inv { s with txt := txt } :=
  { h with
    txt_window := hlen
    txt_only_text := fun _ => ⟨ha, isTextState_of_awaitedMarker hm⟩
    no_marker := fun v hv => by cases hm.symm.trans hv; exact hno }

/-- A byte fed in Streaming (spec R33 iii, iv, R175). -/
theorem fed (h : Inv s) (b : Byte) (ha : s.active = true) (hs : s.hs = .streaming) : Inv (feed [b] s) where
  txt_window := h.txt_window
  txt_only_text := h.txt_only_text
  buf_only_streaming := fun _ => ⟨ha, hs⟩
  buf_drained := feedBuf_drained [b] s.buf
  no_marker := h.no_marker
  timer_window := h.timer_window
  failed_idle := h.failed_idle
  err_none := h.err_none
  timer_bound := h.timer_bound
  noise := feedBuf_byte_noiseBounded h.buf_drained h.noise b

/-- A session that leaves a text or write state for another state of the session, its text cleared. -/
theorem advance (h : Inv s) {hs : HandshakeState} {timer : Ticks} (out : List Output) (ha : s.active = true)
    (hfrom : s.hs ≠ .streaming) (hto : hs ≠ .failed) (htimer : ∀ w, tickWindow hs = some w → timer.toNat < w.toNat)
    (hbound : timer.toNat ≤ Config.detectWindow.toNat) :
    Inv { s with hs := hs, timer := timer, txt := [], out := out } :=
  inv_of_empty rfl (h.buf_eq_nil hfrom) (fun _ => htimer) (fun hf => absurd hf hto) (fun _ => h.err_none ha) hbound

/-- Every reaction to an event keeps the invariants. -/
theorem reaction (h : Inv s) {e : Instr} {t : State} (hr : Reaction s e t) : Inv t := by
  cases hr with
  | ignored => exact h
  | reset => exact inv_of_idle rfl rfl rfl (Nat.zero_le _)
  | start => exact inv_of_empty rfl rfl (fun _ w => zero_lt_tickWindow) nofun (fun _ => rfl) (Nat.zero_le _)
  | stop => exact inv_of_idle rfl rfl rfl h.timer_bound
  | closed => exact inv_of_idle rfl rfl rfl h.timer_bound
  | tickCounted ha hw hne => exact h.tickCounted ha hw hne
  | detectionEnds ha hs hw => exact h.advance _ ha (by simp [hs]) nofun nofun (Nat.le_of_eq (congrArg _ hw))
  | ackExpires ha hs hw =>
    refine inv_of_idle rfl rfl rfl ?_
    rw [hw]
    exact ackTimeout_le_detectWindow
  | textKept b ha hm hno => exact h.textKept ha hm (txtPush_length b s.txt) hno
  | notInitSeen b ha hs => exact h.advance _ ha (by simp [hs]) nofun nofun h.timer_bound
  | firstOkSeen b ha hs => exact h.advance _ ha (by simp [hs]) nofun nofun h.timer_bound
  | secondOkSeen b ha hs => exact h.advance _ ha (by simp [hs]) nofun nofun h.timer_bound
  | byteHeld b => exact h.setHeld _
  | fed b ha hs => exact h.fed b ha hs
  | configWritten ha hs =>
    exact h.advance _ ha (by simp [hs]) nofun (fun _ => zero_lt_tickWindow) (Nat.zero_le _)
  | runWritten ha hs =>
    exact h.advance _ ha (by simp [hs]) nofun (fun _ => zero_lt_tickWindow) (Nat.zero_le _)

end Inv

/-! ### The writers

For each element the reactions that write it are named; every other reaction leaves it. -/

namespace Reaction

variable {s t : State} {e : Instr}

theorem active_writers (h : Reaction s e t) (hne : t.active ≠ s.active) :
    e ∈ [Instr.reset, .start, .stop, .closed, .tick] := by
  cases h with
  | reset | start _ | stop _ | closed _ | ackExpires _ _ _ => simp
  | _ => exact absurd rfl hne

theorem hs_writers (h : Reaction s e t) (hne : t.hs ≠ s.hs) :
    e ∈ [Instr.reset, .start, .tick, .send, .closed] ∨ ∃ b, e = .rx b := by
  cases h with
  | reset | start _ | closed _ | detectionEnds _ _ _ | ackExpires _ _ _ | configWritten _ _ | runWritten _ _ =>
    exact .inl (by simp)
  | notInitSeen b _ _ _ | firstOkSeen b _ _ _ | secondOkSeen b _ _ _ => exact .inr ⟨b, rfl⟩
  | _ => exact absurd rfl hne

theorem timer_writers (h : Reaction s e t) (hne : t.timer ≠ s.timer) :
    (t.timer = 0 ∧ e ∈ [Instr.reset, .start, .send]) ∨
      (t.timer = s.timer + 1 ∧ e = .tick ∧ s.active = true ∧ isTextState s.hs = true) := by
  cases h with
  | reset | start _ | configWritten _ _ | runWritten _ _ => exact .inl ⟨rfl, by simp⟩
  | tickCounted ha hw _ => exact .inr ⟨rfl, rfl, ha, isTextState_of_tickWindow hw⟩
  | detectionEnds ha hs _ => exact .inr ⟨rfl, rfl, ha, by rw [hs]; rfl⟩
  | ackExpires ha hs _ => exact .inr ⟨rfl, rfl, ha, by rcases hs with hs | hs <;> rw [hs] <;> rfl⟩
  | _ => exact absurd rfl hne

theorem err_writers (h : Reaction s e t) (hne : t.err ≠ s.err) :
    (t.err = .none ∧ e ∈ [Instr.reset, .start]) ∨
      (t.err = .transportClosed ∧ e = .closed ∧ s.active = true) ∨
      (t.err = .handshakeTimeout ∧ e = .tick ∧ s.active = true ∧
        (s.hs = .awaitingFirstAck ∨ s.hs = .awaitingSecondAck) ∧ t.timer = Config.ackTimeout) := by
  cases h with
  | reset | start _ => exact .inl ⟨rfl, by simp⟩
  | closed ha => exact .inr (.inl ⟨rfl, rfl, ha⟩)
  | ackExpires ha hs hw => exact .inr (.inr ⟨rfl, rfl, ha, hs, hw⟩)
  | _ => exact absurd rfl hne

theorem txt_writers (h : Reaction s e t) (hne : t.txt ≠ s.txt) :
    e ∈ [Instr.reset, .start, .send, .tick, .stop, .closed] ∨ ∃ b, e = .rx b := by
  cases h with
  | reset | start _ | stop _ | closed _ | detectionEnds _ _ _ | ackExpires _ _ _ | configWritten _ _
  | runWritten _ _ => exact .inl (by simp)
  | textKept b _ _ _ | notInitSeen b _ _ _ | firstOkSeen b _ _ _ | secondOkSeen b _ _ _ => exact .inr ⟨b, rfl⟩
  | _ => exact absurd rfl hne

theorem buf_writers (h : Reaction s e t) (hne : t.buf ≠ s.buf) :
    e ∈ [Instr.reset, .start, .stop, .closed, .tick] ∨
      ((∃ b, e = .rx b) ∧ s.active = true ∧ s.hs = .streaming) := by
  cases h with
  | reset | start _ | stop _ | closed _ | ackExpires _ _ _ => exact .inl (by simp)
  | fed b ha hs => exact .inr ⟨⟨b, rfl⟩, ha, hs⟩
  | _ => exact absurd rfl hne

end Reaction

/-! ### The obligations -/

/-- Settles O53: at reset there is no session, both memories are empty and `timer` is 0. -/
theorem invariantsHoldAtReset : Obligations.InvariantsHoldAtReset :=
  inv_of_idle rfl rfl rfl (Nat.zero_le _)

/-- Settles O54: taking an event off the transport or the list touches none of the six elements, and each reaction to
it keeps the invariants. -/
theorem everyStepKeepsTheInvariants : Obligations.EveryStepKeepsTheInvariants := by
  intro s t hi hstep
  rcases fetch_cases s with ⟨b, bs, -, -, hf⟩ | ⟨w, ws, -, hf⟩ | ⟨-, hf⟩
  · rw [step_of_fetch hf] at hstep
    exact (hi.setHeld bs).reaction (reaction_of_exec hstep)
  · rw [step_of_fetch hf] at hstep
    exact (hi.setInbox ws).reaction (reaction_of_exec hstep)
  · rw [step_of_nothing hf] at hstep
    cases hstep
    exact hi

/-- Settles O56: what an event answers is one of its reactions, and the writers of each element are known of those. -/
theorem eachElementHasItsWriters : Obligations.EachElementHasItsWriters := by
  intro s t w h
  have hr : Reaction s (decodeEvent w) t := reaction_of_exec h
  exact ⟨hr.active_writers, hr.hs_writers, hr.timer_writers, hr.err_writers, hr.txt_writers, hr.buf_writers⟩

end Sys2Proof.Machine
end

section
/-! PROOF. What FEED of a whole chunk answers where it does not run: past the capacity of the buffer, and outside
Streaming of a session (spec R60, R107, R160). -/

namespace Sys2Proof.Machine

/-- The open part of BUF_CAP only adds to the least value (spec R9). -/
theorem bufSoftBound_add_le_bufCap : Config.bufSoftBound + 257 ≤ Config.bufCap :=
  Nat.le_add_right _ _

theorem exec_feed_of_overflow {s : State} {chunk : List Byte} (ha : s.active = true) (hs : s.hs = .streaming)
    (hover : Config.bufCap < s.buf.length + chunk.length) : exec (.feed chunk) s = .refused .bufCapacity := by
  have hin : s.inState .streaming = true := (inState_eq_true_iff s _).2 ⟨ha, hs⟩
  change execFeed chunk s = _
  rw [execFeed, if_pos hin, if_neg (Nat.not_le_of_lt hover)]

theorem exec_feed_of_not_streaming {s : State} (chunk : List Byte) (h : ¬ (s.active = true ∧ s.hs = .streaming)) :
    exec (.feed chunk) s = .next s := by
  have hout : ¬ s.inState .streaming = true := mt (inState_eq_true_iff s _).1 h
  change execFeed chunk s = _
  rw [execFeed, if_neg hout]

/-! ### The obligation -/

/-- Settles O22: the two tests of FEED, the state first and then the capacity, each answer in their own way. -/
theorem feedPastCapacityIsRefused : Obligations.FeedPastCapacityIsRefused :=
  ⟨bufSoftBound_add_le_bufCap, fun _ chunk =>
    ⟨exec_feed_of_overflow, exec_feed_of_not_streaming chunk⟩⟩

end Sys2Proof.Machine
end

section
/-! PROOF. The encodings: event words, the dispatch table by its selector bits, the frames and record fields, and the
round trip between encoder and decoder (spec R80 to R99, R108, R109). -/

namespace Sys2Proof.Machine

/-! ### Event words

The event of each code, whatever the operand (spec R97, R98). -/

section

variable (b : Byte)

theorem decodeEvent_reset : decodeEvent (eventWord 0 b) = .reset := by simp [decodeEvent]
theorem decodeEvent_start : decodeEvent (eventWord 1 b) = .start := by simp [decodeEvent]
theorem decodeEvent_stop : decodeEvent (eventWord 2 b) = .stop := by simp [decodeEvent]
theorem decodeEvent_closed : decodeEvent (eventWord 3 b) = .closed := by simp [decodeEvent]
theorem decodeEvent_tick : decodeEvent (eventWord 4 b) = .tick := by simp [decodeEvent]
theorem decodeEvent_rx : decodeEvent (eventWord 5 b) = .rx b := decodeEvent_rxWord b
theorem decodeEvent_send : decodeEvent (eventWord 6 b) = .send := by simp [decodeEvent]
theorem decodeEvent_reserved7 : decodeEvent (eventWord 7 b) = .reserved7 := by simp [decodeEvent]

end

/-- Every event word is a code and an operand (spec R96). -/
theorem eventWord_cases (w : EventWord) :
    ∃ b, w = eventWord 0 b ∨ w = eventWord 1 b ∨ w = eventWord 2 b ∨ w = eventWord 3 b ∨ w = eventWord 4 b ∨
      w = eventWord 5 b ∨ w = eventWord 6 b ∨ w = eventWord 7 b := by
  have hw : w = eventWord (eventCode w) (eventOperand w) :=
    calc w = w.extractLsb' 0 11 := BitVec.extractLsb'_eq_self.symm
      _ = eventWord (eventCode w) (eventOperand w) :=
        (BitVec.extractLsb'_append_extractLsb'_eq_extractLsb' (x := w) (start₁ := 0) (len₁ := 8) rfl).symm
  have hc : ∀ c : BitVec 3, c = 0 ∨ c = 1 ∨ c = 2 ∨ c = 3 ∨ c = 4 ∨ c = 5 ∨ c = 6 ∨ c = 7 := by decide
  refine ⟨eventOperand w, ?_⟩
  rcases hc (eventCode w) with h | h | h | h | h | h | h | h <;> rw [h] at hw <;> simp only [← hw, true_or, or_true]

/-! ### The dispatch table -/

/-- Bits 14:8 of a dispatch word: `active`, the code of `hs` and the event code (spec R108). -/
def selector (active : Bool) (h : HandshakeState) (c : BitVec 3) : BitVec 7 :=
  (BitVec.ofBool active ++ hsCode h : BitVec 4) ++ c

/-- A dispatch word from its selector and its operand. -/
def selectorWord (sel : BitVec 7) (b : Byte) : DispatchWord := sel ++ b

/-- The row of the first line of the dispatch table that a selector matches. -/
def selectedRow (sel : BitVec 7) : Option (Byte → Instr) :=
  (dispatchTable.find? (fun r => selectorWord sel 0 &&& r.mask == r.pattern)).map DispatchRow.row

theorem dispatchWord_eventWord (s : State) (c : BitVec 3) (b : Byte) :
    dispatchWord s (eventWord c b) = selectorWord (selector s.active s.hs c) b := by
  unfold dispatchWord eventWord selectorWord selector
  generalize (BitVec.ofBool s.active ++ hsCode s.hs : BitVec 4) = state
  have hassoc : state ++ c ++ b = (state ++ (c ++ b)).cast rfl := BitVec.append_assoc
  rw [BitVec.cast_eq] at hassoc
  exact hassoc.symm

theorem withOperand_selectorWord (sel : BitVec 7) (b : Byte) :
    withOperand (selectorWord sel 0) b = selectorWord sel b := by
  have hb : b.setWidth 15 = (0 : BitVec 7) ++ b := BitVec.setWidth_eq_append (by decide)
  calc withOperand (selectorWord sel 0) b = (sel ++ 0#8) ||| (0#7 ++ b) := by rw [withOperand, hb]; rfl
    _ = (sel ||| 0#7) ++ (0#8 ||| b) := BitVec.or_append
    _ = selectorWord sel b := by rw [BitVec.or_zero, BitVec.zero_or]; rfl

theorem dispatchOperand_selectorWord (sel : BitVec 7) (b : Byte) : dispatchOperand (selectorWord sel b) = b :=
  BitVec.extractLsb'_append_eq_right

theorem selectorWord_and (sel m : BitVec 7) (b : Byte) :
    selectorWord sel b &&& selectorWord m 0 = selectorWord (sel &&& m) 0 :=
  BitVec.and_append.trans (congrArg ((sel &&& m) ++ ·) BitVec.and_zero)

theorem eq_selectorWord_of_operand_zero {m : DispatchWord} (h : dispatchOperand m = 0) :
    m = selectorWord (m.extractLsb' 8 7) 0 := by
  rw [← h]
  calc m = m.extractLsb' 0 15 := BitVec.extractLsb'_eq_self.symm
    _ = selectorWord (m.extractLsb' 8 7) (dispatchOperand m) :=
      (BitVec.extractLsb'_append_extractLsb'_eq_extractLsb' (x := m) (start₁ := 0) (len₁ := 8) rfl).symm

/-- No line of the table looks at the operand bits. -/
theorem dispatchOperand_mask : ∀ r ∈ dispatchTable, dispatchOperand r.mask = 0 := by
  decide

theorem find_dispatchTable (sel : BitVec 7) (b : Byte) :
    dispatchTable.find? (fun r => selectorWord sel b &&& r.mask == r.pattern) =
      dispatchTable.find? (fun r => selectorWord sel 0 &&& r.mask == r.pattern) := by
  refine List.find?_congr fun r hr => ?_
  rw [eq_selectorWord_of_operand_zero (dispatchOperand_mask r hr), selectorWord_and, selectorWord_and]

theorem decodeDispatch_of_selectedRow {sel : BitVec 7} {row : Byte → Instr} (b : Byte)
    (h : selectedRow sel = some row) : decodeDispatch (selectorWord sel b) = .ok (row b) := by
  obtain ⟨r, hr, rfl⟩ := Option.map_eq_some_iff.1 h
  rw [decodeDispatch, find_dispatchTable, hr, dispatchOperand_selectorWord]

theorem decodeDispatch_of_selectedRow_none {sel : BitVec 7} (b : Byte) (h : selectedRow sel = none) :
    decodeDispatch (selectorWord sel b) = .error .noDispatchRow := by
  rw [decodeDispatch, find_dispatchTable, Option.map_eq_none_iff.1 h]

/-! ### Frames -/

theorem classify_short {p : List Byte} (h : p.length < Config.minPayload) : classify p = .short p := by
  simp [classify, h]

/-- From three bytes on, a payload is a command, record data and a pair, and the command decides (spec R81, R83). -/
theorem classify_command (c hi lo : Byte) (r : List Byte) :
    classify (c :: (r ++ [hi, lo])) = if c = Config.cmdStatus then .status r hi lo else .unrec c r hi lo := by
  have hlen : ¬ r.length + 2 + 1 < Config.minPayload := by simp [Config.minPayload]
  have hdata : slice 1 (r.length + 1) (c :: (r ++ [hi, lo])) = r := by simp [slice]
  have hhi : byteAt (r ++ [hi, lo]) r.length = hi := byteAt_append_right r [hi, lo] 0
  have hlo : byteAt (r ++ [hi, lo]) (r.length + 1) = lo := byteAt_append_right r [hi, lo] 1
  simp [classify, hlen, hdata, hhi, hlo]

theorem classify_status {c : Byte} (hc : c = Config.cmdStatus) (hi lo : Byte) (r : List Byte) :
    classify (c :: (r ++ [hi, lo])) = .status r hi lo :=
  (classify_command ..).trans (if_pos hc)

theorem classify_unrec {c : Byte} (hc : c ≠ Config.cmdStatus) (hi lo : Byte) (r : List Byte) :
    classify (c :: (r ++ [hi, lo])) = .unrec c r hi lo :=
  (classify_command ..).trans (if_neg hc)

theorem exists_command_of_length {p : List Byte} (h : 3 ≤ p.length) :
    ∃ (c hi lo : Byte) (r : List Byte), p = c :: (r ++ [hi, lo]) := by
  obtain ⟨c, q, rfl⟩ := List.exists_cons_of_length_pos (Nat.lt_of_lt_of_le (by decide) h)
  have htail : (q.drop (q.length - 2)).length = 2 := by
    rw [List.length_cons] at h
    rw [List.length_drop]
    omega
  obtain ⟨hi, lo, hpair⟩ := List.length_eq_two.1 htail
  exact ⟨c, hi, lo, q.take (q.length - 2), by rw [← hpair, List.take_append_drop]⟩

/-- The two forms of a payload (spec R83). -/
theorem payload_cases (p : List Byte) :
    p.length < Config.minPayload ∨ ∃ (c hi lo : Byte) (r : List Byte), p = c :: (r ++ [hi, lo]) :=
  (Nat.lt_or_ge p.length Config.minPayload).imp_right exists_command_of_length

theorem payload_classify (p : List Byte) : (classify p).payload = p := by
  rcases payload_cases p with h | ⟨c, hi, lo, r, rfl⟩
  · rw [classify_short h]
    rfl
  · rw [classify_command]
    split
    · rename_i hc
      exact congrArg (· :: (r ++ [hi, lo])) hc.symm
    · rfl

theorem wellFormed_classify {p : List Byte} (h : p.length ≤ 255) : WellFormed (classify p).toInstr = true := by
  rcases payload_cases p with hp | ⟨c, hi, lo, r, rfl⟩
  · rw [classify_short hp]
    exact decide_eq_true hp
  · have hr : r.length ≤ 252 := by simp at h; omega
    rw [classify_command]
    split
    · exact decide_eq_true hr
    · rename_i hc
      simp [Frame.toInstr, WellFormed, hc, hr]

/-- A well-formed frame fits its length byte, and its class is read back from its payload. -/
theorem classify_payload {f : Frame} (h : WellFormed f.toInstr = true) :
    f.payload.length ≤ 255 ∧ classify f.payload = f := by
  cases f with
  | short p =>
    have hp : p.length < Config.minPayload := of_decide_eq_true h
    exact ⟨Nat.le_trans (Nat.le_of_lt hp) (by decide), classify_short hp⟩
  | status r hi lo =>
    have hr : r.length ≤ 252 := of_decide_eq_true h
    exact ⟨by simp [Frame.payload]; omega, classify_status rfl hi lo r⟩
  | unrec c r hi lo =>
    obtain ⟨hc, hr⟩ : c ≠ Config.cmdStatus ∧ r.length ≤ 252 := by simpa [Frame.toInstr, WellFormed] using h
    exact ⟨by simp [Frame.payload]; omega, classify_unrec hc hi lo r⟩

/-- From two bytes on, the first must be the sentinel and the second says how many follow (spec R80, R82). -/
theorem decodeFrame_cons_cons (b l : Byte) (tail : List Byte) :
    decodeFrame (b :: l :: tail) =
      if b = Config.sentinel then
        if tail.length < l.toNat then .error .incompleteFrame
        else .ok (classify (tail.take l.toNat), tail.drop l.toNat)
      else .error .noSentinel := by
  simp [decodeFrame, frameTotal, slice, Nat.add_comm 2]

theorem decodeFrame_of_front (l : Byte) (p rest : List Byte) (hp : p.length = l.toNat) :
    decodeFrame (Config.sentinel :: l :: (p ++ rest)) = .ok (classify p, rest) := by
  simp [decodeFrame_cons_cons, ← hp]

/-- What the decoder reads stands at the front: the sentinel, the length byte and as many bytes as it says. -/
theorem front_of_decodeFrame {bs rest : List Byte} {f : Frame} (h : decodeFrame bs = .ok (f, rest)) :
    ∃ (l : Byte) (p : List Byte), bs = Config.sentinel :: l :: (p ++ rest) ∧ p.length = l.toNat ∧ f = classify p := by
  match bs with
  | [] => cases h
  | [b] =>
    unfold decodeFrame at h
    split at h <;> cases h
  | b :: l :: tail =>
    rw [decodeFrame_cons_cons] at h
    split at h
    · rename_i hb
      split at h
      · cases h
      · rename_i hl
        cases h
        have htake : (tail.take l.toNat).length = l.toNat := by
          rw [List.length_take]
          omega
        exact ⟨l, tail.take l.toNat, by rw [hb, List.take_append_drop], htake, rfl⟩
    · cases h

/-- A sentinel, the length and a payload that fits it decode to the payload's class. -/
theorem decode_frame {p : List Byte} (h : p.length ≤ 255) :
    decode (.frame (Config.sentinel :: BitVec.ofNat 8 p.length :: p)) = .ok (classify p).toInstr := by
  have hl : p.length = (BitVec.ofNat 8 p.length).toNat := by
    rw [BitVec.toNat_ofNat, Nat.mod_eq_of_lt (by omega)]
  have hf := decodeFrame_of_front (BitVec.ofNat 8 p.length) p [] hl
  rw [List.append_nil] at hf
  simp [decode, hf]

theorem decode_frame_bytes {f : Frame} (h : WellFormed f.toInstr = true) : decode (.frame f.bytes) = .ok f.toInstr := by
  obtain ⟨hlen, hclass⟩ := classify_payload h
  rw [Frame.bytes, decode_frame hlen, hclass]

/-! ### What the decoder yields is well-formed -/

theorem wellFormed_decodeEvent (w : EventWord) : WellFormed (decodeEvent w) = true := by
  rcases decodeEvent_cases w with h | h | h | h | h | ⟨b, h⟩ | h | h <;> rw [h] <;> rfl

theorem wellFormed_dispatchRow : ∀ r ∈ dispatchTable, ∀ b, WellFormed (r.row b) = true := by
  simp [dispatchTable, sessionRows, tickRows, rxRows, sendRows, WellFormed]

theorem wellFormed_of_decodeDispatch {w : DispatchWord} {i : Instr} (h : decodeDispatch w = .ok i) :
    WellFormed i = true := by
  unfold decodeDispatch at h
  split at h
  · rename_i r hr
    cases h
    exact wellFormed_dispatchRow r (List.mem_of_find?_eq_some hr) _
  · cases h

theorem wellFormed_of_decode_frame {bs : List Byte} {i : Instr} (h : decode (.frame bs) = .ok i) :
    WellFormed i = true := by
  unfold decode at h
  dsimp only at h
  split at h
  · cases h
  · rename_i f rest hf
    split at h
    · cases h
      obtain ⟨l, p, -, hp, rfl⟩ := front_of_decodeFrame hf
      exact wellFormed_classify (by omega)
    · cases h

theorem wellFormed_of_decodeMarker {bs : List Byte} {i : Instr} (h : decodeMarker bs = .ok i) :
    WellFormed i = true := by
  unfold decodeMarker at h
  split at h
  · cases h; rfl
  · split at h <;> cases h
    rfl

theorem wellFormed_of_decodeTxString {bs : List Byte} {i : Instr} (h : decodeTxString bs = .ok i) :
    WellFormed i = true := by
  unfold decodeTxString at h
  split at h
  · cases h; rfl
  · split at h <;> cases h
    rfl

theorem wellFormed_fieldRow {r : List Byte} (hr : recordDataOk r = true) :
    ∀ f ∈ fieldTable, WellFormed (f.row r) = true := by
  simp [fieldTable, WellFormed, hr]

theorem wellFormed_of_decodeField {offset size : Nat} {r : List Byte} {i : Instr}
    (h : decodeField offset size r = .ok i) : WellFormed i = true := by
  unfold decodeField at h
  split at h
  · rename_i f hf
    split at h
    · rename_i hr
      cases h
      exact wellFormed_fieldRow hr f (List.mem_of_find?_eq_some hf)
    · cases h
  · cases h

/-! ### The round trip -/

/-- What the encoder gives for `i`, the decoder reads as `i`. -/
def RoundTrips (i : Instr) : Prop := ∀ ws, encode i = some ws → decode ws = .ok i

theorem roundTrips_of_encode {i : Instr} {ws : Words} (he : encode i = some ws) (hd : decode ws = .ok i) :
    RoundTrips i := by
  intro ws' h
  cases he.symm.trans h
  exact hd

/-- An RX line: the encoder puts the byte behind the line's selector. -/
theorem roundTrips_of_selectedRow {sel : BitVec 7} {row : Byte → Instr} {b : Byte}
    (he : encode (row b) = some (.dispatch (withOperand (selectorWord sel 0) b))) (hr : selectedRow sel = some row) :
    RoundTrips (row b) :=
  roundTrips_of_encode he (by rw [withOperand_selectorWord]; exact decodeDispatch_of_selectedRow b hr)

theorem roundTrips_frame {f : Frame} (he : encode f.toInstr = some (.frame f.bytes))
    (h : WellFormed f.toInstr = true) : RoundTrips f.toInstr :=
  roundTrips_of_encode he (decode_frame_bytes h)

/-- Format by format: an operand is where the encoder put it, and a form without operand is one closed word. -/
theorem roundTrips_of_wellFormed {i : Instr} (hw : WellFormed i = true) : RoundTrips i := by
  cases i with
  | rx b => exact roundTrips_of_encode rfl (congrArg Except.ok (decodeEvent_rx b))
  | rxIdle b => exact roundTrips_of_selectedRow (sel := 0x05) rfl rfl
  | rxDetectingInit b => exact roundTrips_of_selectedRow (sel := 0x45) rfl rfl
  | rxConfigSent b => exact roundTrips_of_selectedRow (sel := 0x4D) rfl rfl
  | rxAwaitingFirstAck b => exact roundTrips_of_selectedRow (sel := 0x55) rfl rfl
  | rxRunSent b => exact roundTrips_of_selectedRow (sel := 0x5D) rfl rfl
  | rxAwaitingSecondAck b => exact roundTrips_of_selectedRow (sel := 0x65) rfl rfl
  | rxStreaming b => exact roundTrips_of_selectedRow (sel := 0x6D) rfl rfl
  | frameShort p => exact roundTrips_frame (f := .short p) rfl hw
  | frameStatus r hi lo => exact roundTrips_frame (f := .status r hi lo) rfl hw
  | frameUnrec c r hi lo => exact roundTrips_frame (f := .unrec c r hi lo) rfl hw
  | recId r | recSyncId r | recTimeOffsetMs r | recPadding r | recLatitude r | recLongitude r | recHeading r
  | recCovPos r | recSpeedX r | recSpeedY r | recRotSpeed r | recDriveMode r | recAuxDataStatus r =>
    -- the table finds the row by its offset and size, and the only test left is that of the record data
    exact roundTrips_of_encode rfl (if_pos hw)
  | checksum _ | validate _ _ _ | decode _ | feed _ => nofun
  | _ => exact roundTrips_of_encode rfl (by decide)

theorem encode_eq_none_iff (i : Instr) :
    encode i = none ↔ (∃ d, i = .checksum d) ∨ (∃ d hi lo, i = .validate d hi lo) ∨ (∃ r, i = .decode r) ∨
      ∃ c, i = .feed c := by
  cases i <;> simp [encode]

/-! ### The obligations -/

/-- Settles O45: format by format, the decoder reads what the encoder wrote. -/
theorem decodeOfEncodeIsTheInstruction : Obligations.DecodeOfEncodeIsTheInstruction :=
  fun i hw => ⟨roundTrips_of_wellFormed hw, encode_eq_none_iff i⟩

/-- Settles O46: each format's decoder checks its operands, or has none to check. -/
theorem decodeYieldsWellFormed : Obligations.DecodeYieldsWellFormed := by
  intro ws i h
  cases ws with
  | event w =>
    cases h
    exact wellFormed_decodeEvent w
  | dispatch w => exact wellFormed_of_decodeDispatch h
  | frame bs => exact wellFormed_of_decode_frame h
  | marker bs => exact wellFormed_of_decodeMarker h
  | txString bs => exact wellFormed_of_decodeTxString h
  | recordField offset size r => exact wellFormed_of_decodeField h

/-- Settles O47: the length byte counts the payload, and the class keeps the payload's bytes. -/
theorem decodedFrameKeepsEveryByte : Obligations.DecodedFrameKeepsEveryByte := by
  intro bs rest f h
  obtain ⟨l, p, rfl, hp, rfl⟩ := front_of_decodeFrame h
  simp [Frame.bytes, payload_classify, hp]

/-- Settles O32: below three bytes the length decides; from three bytes on the command does. -/
theorem frameClassesPartitionAllFrames : Obligations.FrameClassesPartitionAllFrames := by
  intro payload h255
  refine ⟨fun h3 => ?_, fun h3 => ?_⟩
  · exact (decode_frame h255).trans (by rw [classify_short h3]; rfl)
  · obtain ⟨c, hi, lo, r, rfl⟩ := exists_command_of_length h3
    refine ⟨c, hi, lo, r, rfl, fun hc => ?_, fun hc => ?_⟩
    · exact (decode_frame h255).trans (by rw [classify_status hc]; rfl)
    · exact (decode_frame h255).trans (by rw [classify_unrec hc]; rfl)

/-- Settles O48: the eight codes for every operand, and the reserved event is ignored. -/
theorem eventCodesAreTheTable : Obligations.EventCodesAreTheTable :=
  ⟨fun b => ⟨decodeEvent_reset b, decodeEvent_start b, decodeEvent_stop b, decodeEvent_closed b, decodeEvent_tick b,
    decodeEvent_rx b, decodeEvent_send b, decodeEvent_reserved7 b⟩, fun _ => rfl⟩

/-- Settles O50: closed words, decoded by the model. -/
theorem sampleWordsDecode : Obligations.SampleWordsDecode := by
  unfold Obligations.SampleWordsDecode
  decide

end Sys2Proof.Machine
end

section
/-! PROOF. The dispatch lines: the selected line answers what its event answers, a line that is not selected changes
nothing (spec R108, R109; log 6, 12, 17), and the two strings (spec R92, R93, R104). -/

namespace Sys2Proof.Machine

/-! ### The selected line -/

/-- The event word `w` selects, in `s`, a line that answers what the event answers (spec R108). -/
def SelectsReaction (s : State) (w : EventWord) : Prop :=
  ∃ i, decodeDispatch (dispatchWord s w) = .ok i ∧ exec i s = exec (decodeEvent w) s

/-- It is enough to name the row that `active`, `hs` and the event code select. -/
theorem selectsReaction_of_row {s : State} {c : BitVec 3} {b : Byte} {e : Instr} {active : Bool} {h : HandshakeState}
    (row : Byte → Instr) (ha : s.active = active) (hs : s.hs = h) (he : decodeEvent (eventWord c b) = e)
    (hrow : selectedRow (selector active h c) = some row)
    (hexec : exec (row b) { s with active := active, hs := h } = exec e { s with active := active, hs := h }) :
    SelectsReaction s (eventWord c b) := by
  subst ha hs
  exact ⟨row b, by rw [dispatchWord_eventWord, decodeDispatch_of_selectedRow b hrow], by rw [he, hexec]⟩

/-! Each event, in the states that have a line of their own for it. -/

section

variable (s : State) (b : Byte)

theorem selectsReaction_reset : SelectsReaction s (eventWord 0 b) := by
  have he := decodeEvent_reset b
  have hrow : ∀ a h, selectedRow (selector a h 0) = some fun _ => .reset := by
    rintro (_ | _) (_ | _) <;> rfl
  exact selectsReaction_of_row _ rfl rfl he (hrow s.active s.hs) rfl

theorem selectsReaction_start : SelectsReaction s (eventWord 1 b) := by
  have he := decodeEvent_start b
  cases ha : s.active with
  | false => exact selectsReaction_of_row (fun _ => .startIdle) ha rfl he (by cases s.hs <;> rfl) rfl
  | true => exact selectsReaction_of_row (fun _ => .startActive) ha rfl he (by cases s.hs <;> rfl) rfl

theorem selectsReaction_stop : SelectsReaction s (eventWord 2 b) := by
  have he := decodeEvent_stop b
  cases ha : s.active with
  | false => exact selectsReaction_of_row (fun _ => .stopIdle) ha rfl he (by cases s.hs <;> rfl) rfl
  | true => exact selectsReaction_of_row (fun _ => .stopActive) ha rfl he (by cases s.hs <;> rfl) rfl

theorem selectsReaction_closed : SelectsReaction s (eventWord 3 b) := by
  have he := decodeEvent_closed b
  cases ha : s.active with
  | false => exact selectsReaction_of_row (fun _ => .closedIdle) ha rfl he (by cases s.hs <;> rfl) rfl
  | true => exact selectsReaction_of_row (fun _ => .closedActive) ha rfl he (by cases s.hs <;> rfl) rfl

theorem selectsReaction_tick (hno : ¬ (s.active = true ∧ s.hs = .failed)) :
    SelectsReaction s (eventWord 4 b) := by
  have he := decodeEvent_tick b
  cases ha : s.active with
  | false => exact selectsReaction_of_row (fun _ => .tickIdle) ha rfl he (by cases s.hs <;> rfl) rfl
  | true =>
    cases hs : s.hs with
    | detectingInit => exact selectsReaction_of_row (fun _ => .tickDetectingInit) ha hs he rfl rfl
    | configSent => exact selectsReaction_of_row (fun _ => .tickConfigSent) ha hs he rfl rfl
    | awaitingFirstAck => exact selectsReaction_of_row (fun _ => .tickAwaitingFirstAck) ha hs he rfl rfl
    | runSent => exact selectsReaction_of_row (fun _ => .tickRunSent) ha hs he rfl rfl
    | awaitingSecondAck => exact selectsReaction_of_row (fun _ => .tickAwaitingSecondAck) ha hs he rfl rfl
    | streaming => exact selectsReaction_of_row (fun _ => .tickStreaming) ha hs he rfl rfl
    | failed => exact absurd ⟨ha, hs⟩ hno

theorem selectsReaction_rx (hno : ¬ (s.active = true ∧ s.hs = .failed)) :
    SelectsReaction s (eventWord 5 b) := by
  have he := decodeEvent_rx b
  cases ha : s.active with
  | false => exact selectsReaction_of_row .rxIdle ha rfl he (by cases s.hs <;> rfl) rfl
  | true =>
    cases hs : s.hs with
    | detectingInit => exact selectsReaction_of_row .rxDetectingInit ha hs he rfl rfl
    | configSent => exact selectsReaction_of_row .rxConfigSent ha hs he rfl rfl
    | awaitingFirstAck => exact selectsReaction_of_row .rxAwaitingFirstAck ha hs he rfl rfl
    | runSent => exact selectsReaction_of_row .rxRunSent ha hs he rfl rfl
    | awaitingSecondAck => exact selectsReaction_of_row .rxAwaitingSecondAck ha hs he rfl rfl
    | streaming => exact selectsReaction_of_row .rxStreaming ha hs he rfl rfl
    | failed => exact absurd ⟨ha, hs⟩ hno

theorem selectsReaction_send : SelectsReaction s (eventWord 6 b) := by
  have he := decodeEvent_send b
  cases ha : s.active with
  | false => exact selectsReaction_of_row (fun _ => .sendOther) ha rfl he (by cases s.hs <;> rfl) rfl
  | true =>
    cases hs : s.hs with
    | configSent => exact selectsReaction_of_row (fun _ => .sendConfigSent) ha hs he rfl rfl
    | runSent => exact selectsReaction_of_row (fun _ => .sendRunSent) ha hs he rfl rfl
    | detectingInit | awaitingFirstAck | awaitingSecondAck | streaming | failed =>
      exact selectsReaction_of_row (fun _ => .sendOther) ha hs he rfl rfl

theorem selectsReaction_reserved7 : SelectsReaction s (eventWord 7 b) := by
  have he := decodeEvent_reserved7 b
  have hrow : ∀ a h, selectedRow (selector a h 7) = some fun _ => .reserved7 := by
    rintro (_ | _) (_ | _) <;> rfl
  exact selectsReaction_of_row _ rfl rfl he (hrow s.active s.hs) rfl

end

/-! TICK and RX, each the event of one code, have no line where a session has failed, and there they are ignored
(log 12). -/

theorem eventWord_of_tick {w : EventWord} (h : decodeEvent w = .tick) : ∃ b, w = eventWord 4 b := by
  obtain ⟨b, rfl | rfl | rfl | rfl | rfl | rfl | rfl | rfl⟩ := eventWord_cases w <;> simp [decodeEvent] at h
  exact ⟨b, rfl⟩

theorem eventWord_of_rx {w : EventWord} {b : Byte} (h : decodeEvent w = .rx b) : w = eventWord 5 b := by
  obtain ⟨b', rfl | rfl | rfl | rfl | rfl | rfl | rfl | rfl⟩ := eventWord_cases w <;> simp [decodeEvent] at h
  rw [h]

theorem tick_has_no_line_in_failed {s : State} (b : Byte) (ha : s.active = true) (hs : s.hs = .failed) :
    decodeDispatch (dispatchWord s (eventWord 4 b)) = .error .noDispatchRow ∧ exec .tick s = .next s := by
  rw [dispatchWord_eventWord, ha, hs]
  refine ⟨decodeDispatch_of_selectedRow_none b rfl, ?_⟩
  simp [exec, execTick, ha, hs, ignored]

theorem rx_has_no_line_in_failed {s : State} (b : Byte) (ha : s.active = true) (hs : s.hs = .failed) :
    decodeDispatch (dispatchWord s (eventWord 5 b)) = .error .noDispatchRow ∧ exec (.rx b) s = .next s := by
  rw [dispatchWord_eventWord, ha, hs]
  refine ⟨decodeDispatch_of_selectedRow_none b rfl, ?_⟩
  simp [exec, execRx, ha, hs, ignored]

/-! ### Lines that are not selected -/

/-- The lines of one event in one state of a session, with that state (spec R108). -/
def stateLines (b : Byte) : List (HandshakeState × Instr) :=
  [(.detectingInit, .tickDetectingInit), (.configSent, .tickConfigSent), (.awaitingFirstAck, .tickAwaitingFirstAck),
   (.runSent, .tickRunSent), (.awaitingSecondAck, .tickAwaitingSecondAck), (.streaming, .tickStreaming),
   (.detectingInit, .rxDetectingInit b), (.configSent, .rxConfigSent b), (.awaitingFirstAck, .rxAwaitingFirstAck b),
   (.runSent, .rxRunSent b), (.awaitingSecondAck, .rxAwaitingSecondAck b), (.streaming, .rxStreaming b),
   (.configSent, .sendConfigSent), (.runSent, .sendRunSent)]

/-- Each of them waits for its state. -/
theorem exec_stateLine (s : State) {b : Byte} {p : HandshakeState × Instr} (hp : p ∈ stateLines b) :
    ∃ f, exec p.2 s = whenSelected (s.inState p.1) f s := by
  simp only [stateLines, List.mem_cons, List.not_mem_nil, or_false] at hp
  rcases hp with rfl | rfl | rfl | rfl | rfl | rfl | rfl | rfl | rfl | rfl | rfl | rfl | rfl | rfl <;>
    exact ⟨_, rfl⟩

theorem exec_stateLine_of_not_inState {s : State} {b : Byte} {p : HandshakeState × Instr} (hp : p ∈ stateLines b)
    (h : ¬ (s.active = true ∧ s.hs = p.1)) : exec p.2 s = .next s := by
  obtain ⟨f, hf⟩ := exec_stateLine s hp
  rw [hf]
  exact whenSelected_of_false f s ((inState_eq_false_iff s p.1).2 h)

theorem exec_frame (f : Frame) (s : State) : exec f.toInstr s = execFrame f s := by
  cases f <;> rfl

theorem exec_frame_of_not_next {f : Frame} {s : State}
    (h : ¬ (s.active = true ∧ s.hs = .streaming ∧ nextFrame s.buf = some f)) : exec f.toInstr s = .next s := by
  rw [exec_frame]
  refine whenSelected_of_false takeFrame s (Bool.eq_false_of_not_eq_true fun hsel => h ?_)
  simpa [and_assoc] using hsel

/-! ### The obligations -/

/-- Settles O49: event by event, the row the selector picks answers what the event answers. -/
theorem selectedLineIsTheReaction : Obligations.SelectedLineIsTheReaction := by
  intro s w
  refine ⟨fun hline => ?_, fun ha hs hev => ?_⟩
  · obtain ⟨b, rfl | rfl | rfl | rfl | rfl | rfl | rfl | rfl⟩ := eventWord_cases w
    · exact selectsReaction_reset s b
    · exact selectsReaction_start s b
    · exact selectsReaction_stop s b
    · exact selectsReaction_closed s b
    · exact selectsReaction_tick s b fun ⟨ha, hs⟩ => hline ⟨ha, hs, .inl (decodeEvent_tick b)⟩
    · exact selectsReaction_rx s b fun ⟨ha, hs⟩ => hline ⟨ha, hs, .inr ⟨b, decodeEvent_rx b⟩⟩
    · exact selectsReaction_send s b
    · exact selectsReaction_reserved7 s b
  · rcases hev with hev | ⟨b, hev⟩ <;> rw [hev]
    · obtain ⟨b, rfl⟩ := eventWord_of_tick hev
      exact tick_has_no_line_in_failed b ha hs
    · cases eventWord_of_rx hev
      exact rx_has_no_line_in_failed b ha hs

/-- Settles O59: each line is behind its own condition. -/
theorem unselectedLinesChangeNothing : Obligations.UnselectedLinesChangeNothing := by
  intro s b
  refine ⟨fun ha => ?_, fun ha => ?_, fun h hno p hp heq => ?_, fun ha hs => ?_, fun f => exec_frame_of_not_next⟩
  · have hno : (!s.active) = false := by rw [ha]; rfl
    exact ⟨whenSelected_of_false _ s hno, whenSelected_of_false _ s hno, whenSelected_of_false _ s hno,
      whenSelected_of_false _ s hno, whenSelected_of_false _ s hno⟩
  · exact ⟨whenSelected_of_false _ s ha, whenSelected_of_false _ s ha, whenSelected_of_false _ s ha⟩
  · subst heq
    exact exec_stateLine_of_not_inState hp hno
  · have hno : (!s.sendEnabled) = false := by
      rw [State.sendEnabled, (writePending_eq_true_iff s).2 ⟨ha, hs⟩]
      rfl
    exact whenSelected_of_false _ s hno

/-- Settles O18: each string is behind the test of its write state. -/
theorem stringsAreWrittenWhereDue : Obligations.StringsAreWrittenWhereDue := by
  intro s
  refine ⟨fun ha hs => ?_, fun hno => ?_, fun ha hs => ?_, fun hno => ?_⟩
  · exact whenSelected_of_true _ s ((inState_eq_true_iff s _).2 ⟨ha, hs⟩)
  · exact whenSelected_of_false _ s ((inState_eq_false_iff s _).2 hno)
  · exact whenSelected_of_true _ s ((inState_eq_true_iff s _).2 ⟨ha, hs⟩)
  · exact whenSelected_of_false _ s ((inState_eq_false_iff s _).2 hno)

end Sys2Proof.Machine
end

section
/-! PROOF. What an event adds to the trace (spec R63, R100 to R104, R270, R275), and by which byte a marker is seen
(spec R61, R91). -/

namespace Sys2Proof.Machine

/-! ### Outputs -/

/-- What the reassembler may emit: a record or one of the two diagnostics of a status frame (spec R167, R275). -/
def IsFrameOutput (o : Output) : Prop :=
  (∃ x, o = .record x) ∨ (∃ raw, o = .diag .checksumMismatch raw) ∨ ∃ raw, o = .diag .decodeTooShort raw

theorem isFrameOutput_of_mem_frameEvents {f : Frame} {raw : List Byte} {o : Output} (h : o ∈ frameEvents f raw) :
    IsFrameOutput o := by
  cases f with
  | short p => cases h
  | unrec c r hi lo => cases h
  | status r hi lo =>
    unfold frameEvents at h
    dsimp only at h
    split at h
    · split at h
      · exact .inl ⟨_, List.mem_singleton.1 h⟩
      · exact .inr (.inr ⟨_, List.mem_singleton.1 h⟩)
    · exact .inr (.inl ⟨_, List.mem_singleton.1 h⟩)

/-- Along the extraction loop nothing but the events of frames is emitted. -/
theorem isFrameOutput_of_mem_feedBuf {chunk buf : List Byte} {o : Output} (h : o ∈ (feedBuf chunk buf).2) :
    IsFrameOutput o := by
  rw [feedBuf_eq] at h
  revert h
  induction buf ++ chunk using loop_induction with
  | noSentinel b hs => rw [feedBuf_noSentinel hs]; nofun
  | waiting b hs => rw [feedBuf_waiting hs]; nofun
  | complete b off total hs ih =>
    rw [feedBuf_complete hs, List.mem_append]
    exact fun h => h.elim isFrameOutput_of_mem_frameEvents ih

/-- Where the event `e` that takes `s` to `t` may emit the output `o`, one alternative for each of the rules R204,
R205, R203 with R210, R271, R272 and R167. -/
def OutputIsDue (s t : State) (e : Instr) (o : Output) : Prop :=
  (o = .tx Config.configStr ∧ e = .send ∧ s.active = true ∧ s.hs = .configSent) ∨
  (o = .tx Config.runStr ∧ e = .send ∧ s.active = true ∧ s.hs = .runSent) ∨
  (o = .status .connected ∧ s.active = true ∧ t.active = true ∧ s.hs ≠ .streaming ∧ t.hs = .streaming) ∨
  (o = .status .handshakeTimeout ∧ e = .tick ∧ s.active = true ∧ t.active = false ∧ t.err = .handshakeTimeout) ∨
  (o = .status .transportClosed ∧ e = .closed ∧ s.active = true ∧ t.active = false ∧ t.err = .transportClosed) ∨
  ((∃ b, e = .rx b) ∧ s.active = true ∧ s.hs = .streaming ∧ IsFrameOutput o)

theorem outputIsDue_connected {s t : State} {e : Instr} (ha : s.active = true) (hta : t.active = true)
    (hs : s.hs ≠ .streaming) (ht : t.hs = .streaming) : OutputIsDue s t e (.status .connected) :=
  .inr (.inr (.inl ⟨rfl, ha, hta, hs, ht⟩))

theorem Reaction.outputs {s t : State} {e : Instr} (h : Reaction s e t) :
    ∃ es, t.out = s.out ++ es ∧ ∀ o ∈ es, OutputIsDue s t e o := by
  cases h with
  | configWritten ha hs => exact ⟨_, rfl, List.forall_mem_singleton.2 (.inl ⟨rfl, rfl, ha, hs⟩)⟩
  | runWritten ha hs => exact ⟨_, rfl, List.forall_mem_singleton.2 (.inr (.inl ⟨rfl, rfl, ha, hs⟩))⟩
  | detectionEnds ha hs _ =>
    exact ⟨_, rfl, List.forall_mem_singleton.2 (outputIsDue_connected ha ha (by simp [hs]) rfl)⟩
  | secondOkSeen b ha hs _ =>
    exact ⟨_, rfl, List.forall_mem_singleton.2 (outputIsDue_connected ha ha (by simp [hs]) rfl)⟩
  | ackExpires ha _ _ =>
    exact ⟨_, rfl, List.forall_mem_singleton.2 (.inr (.inr (.inr (.inl ⟨rfl, rfl, ha, rfl, rfl⟩))))⟩
  | closed ha =>
    exact ⟨_, rfl, List.forall_mem_singleton.2 (.inr (.inr (.inr (.inr (.inl ⟨rfl, rfl, ha, rfl, rfl⟩)))))⟩
  | fed b ha hs =>
    exact ⟨_, rfl, fun o ho =>
      .inr (.inr (.inr (.inr (.inr ⟨⟨b, rfl⟩, ha, hs, isFrameOutput_of_mem_feedBuf ho⟩))))⟩
  | _ => exact ⟨[], (List.append_nil _).symm, nofun⟩

/-! ### The byte that ends a marker -/

/-- A marker fits the text window (spec R9, R90). -/
theorem length_le_textWindow_of_awaitedMarker {h : HandshakeState} {m : List Byte} (hm : awaitedMarker h = some m) :
    m.length ≤ Config.textWindow := by
  cases h <;> cases hm <;> exact Nat.le_of_ble_eq_true rfl

/-- In a text that does not hold the marker yet, a pushed byte brings it exactly where it ends it; the bytes the window
drops are none of the marker's. -/
theorem isInfix_txtPush_iff {m txt : List Byte} (b : Byte) (hlen : m.length ≤ Config.textWindow)
    (hno : ¬ m <:+: txt) : m <:+: txtPush b txt ↔ m <:+ txt ++ [b] := by
  have hpush : txtPush b txt <:+ txt ++ [b] := last_suffix _ _
  constructor
  · intro h
    exact (List.infix_concat_iff.1 (h.trans hpush.isInfix)).resolve_right hno
  · intro h
    have hle : m.length ≤ (txtPush b txt).length := by
      rw [txtPush, last_length]
      exact Nat.le_min.2 ⟨hlen, h.length_le⟩
    exact (List.suffix_of_suffix_length_le h hpush hle).isInfix

/-- RX where a marker is awaited is the push of the byte and the marker test, and each marker's reaction leaves the
state with its text emptied (spec R202, R208, R210). -/
theorem exec_rx_of_awaitedMarker {s : State} {m : List Byte} (b : Byte) (ha : s.active = true)
    (hm : awaitedMarker s.hs = some m) :
    ∃ matched, exec (.rx b) s = .next (rxText m matched b s) ∧ ∀ u, (matched u).hs ≠ s.hs ∧ (matched u).txt = [] := by
  cases hs : s.hs <;> rw [hs] at hm <;> cases hm
  case detectingInit => exact ⟨matchNotInit, by simp [exec, execRx, ha, hs, rxDetecting], fun _ => ⟨nofun, rfl⟩⟩
  case awaitingFirstAck => exact ⟨matchFirstOk, by simp [exec, execRx, ha, hs, rxFirstAck], fun _ => ⟨nofun, rfl⟩⟩
  case awaitingSecondAck => exact ⟨matchSecondOk, by simp [exec, execRx, ha, hs, rxSecondAck], fun _ => ⟨nofun, rfl⟩⟩

/-! ### The obligations -/

/-- Settles O57: what an event answers is one of its reactions, and the outputs of each are due. -/
theorem outputsComeWhereTheRulesSay : Obligations.OutputsComeWhereTheRulesSay :=
  fun _ _ _ h => (reaction_of_exec h).outputs

/-- Settles O16: by R33 (v) the text holds no marker before the byte, so it holds one after it exactly where the byte
ends it. -/
theorem markerIsSeenByTheByteThatEndsIt : Obligations.MarkerIsSeenByTheByteThatEndsIt := by
  intro s t b m hi ha hm h
  rw [← isInfix_txtPush_iff b (length_le_textWindow_of_awaitedMarker hm) (hi.no_marker m hm)]
  obtain ⟨matched, heq, hmatched⟩ := exec_rx_of_awaitedMarker b ha hm
  obtain rfl := Host.Outcome.next.inj (heq.symm.trans h)
  rcases rxText_cases m matched b s with ⟨hin, hr⟩ | ⟨hout, hr⟩ <;> rw [hr]
  · obtain ⟨hne, htxt⟩ := hmatched (s.setTxt (txtPush b s.txt))
    exact ⟨iff_of_true hne hin, fun _ => htxt⟩
  · have hsame : (s.setTxt (txtPush b s.txt)).hs = s.hs := State.setTxt_hs s _
    exact ⟨iff_of_false (not_not_intro hsame) hout, fun hne => absurd hsame hne⟩

end Sys2Proof.Machine
end

section
/-! PROOF. The checksum as the sum of the bytes modulo 65536, its laws and what it detects (spec R51, R120 to R124,
R326). -/

namespace Sys2Proof.Machine

/-! ### The sum of the bytes -/

@[simp] theorem byteSum_nil : byteSum [] = 0 := rfl

@[simp] theorem byteSum_cons (b : Byte) (bs : List Byte) : byteSum (b :: bs) = b.toNat + byteSum bs :=
  List.sum_cons

@[simp] theorem byteSum_append (a b : List Byte) : byteSum (a ++ b) = byteSum a + byteSum b := by
  simp [byteSum]

@[simp] theorem byteSum_replicate_zero (n : Nat) : byteSum (List.replicate n 0) = 0 := by
  simp [byteSum]

theorem byteSum_eq_of_perm {a b : List Byte} (h : a.Perm b) : byteSum a = byteSum b :=
  (h.map BitVec.toNat).sum_eq

theorem byteSum_le (d : List Byte) : byteSum d ≤ d.length * 255 := by
  induction d with
  | nil => exact Nat.zero_le _
  | cons b bs ih =>
    have hb : b.toNat < 256 := b.isLt
    rw [byteSum_cons, List.length_cons]
    omega

/-! ### The checksum of the sum -/

theorem checksum_eq_ofNat_byteSum (d : List Byte) : checksum d = BitVec.ofNat 16 (byteSum d) := by
  induction d with
  | nil => rfl
  | cons b bs ih => rw [checksum_cons, ih, byteSum_cons, BitVec.ofNat_add, BitVec.ofNat_toNat]

theorem checksum_toNat (d : List Byte) : (checksum d).toNat = byteSum d % 65536 := by
  rw [checksum_eq_ofNat_byteSum]
  exact BitVec.toNat_ofNat _ _

theorem checksum_append (a b : List Byte) : checksum (a ++ b) = checksum a + checksum b := by
  simp only [checksum_eq_ofNat_byteSum, byteSum_append, BitVec.ofNat_add]

theorem checksum_eq_of_perm {a b : List Byte} (h : a.Perm b) : checksum a = checksum b := by
  rw [checksum_eq_ofNat_byteSum, checksum_eq_ofNat_byteSum, byteSum_eq_of_perm h]

theorem checksum_append_replicate_zero (d : List Byte) (n : Nat) :
    checksum (d ++ List.replicate n 0) = checksum d := by
  simp only [checksum_eq_ofNat_byteSum, byteSum_append, byteSum_replicate_zero, Nat.add_zero]

/-- The length byte of a frame leaves a body of at most 253 bytes, too few for the sum to wrap (spec R123 c). -/
theorem byteSum_le_of_body {body : List Byte} (h : body.length ≤ 253) : byteSum body ≤ 64515 :=
  (byteSum_le body).trans (Nat.mul_le_mul_right 255 h)

theorem checksum_toNat_of_body {body : List Byte} (h : body.length ≤ 253) :
    (checksum body).toNat = byteSum body := by
  have hle : byteSum body ≤ 64515 := byteSum_le_of_body h
  rw [checksum_toNat, Nat.mod_eq_of_lt (by omega)]

/-! ### The pair -/

theorem checksumPair_fst_toNat (v : BitVec 16) : (checksumPair v).1.toNat = v.toNat / 256 := by
  have hv : v.toNat < 65536 := v.isLt
  rw [checksumPair, BitVec.extractLsb'_toNat, Nat.shiftRight_eq_div_pow]
  omega

theorem be16_inj {hi lo hi' lo' : Byte} (h : be16 hi lo = be16 hi' lo') : (hi, lo) = (hi', lo') := by
  have hn : (be16 hi lo).toNat = (be16 hi' lo').toNat := congrArg BitVec.toNat h
  rw [be16_toNat, be16_toNat] at hn
  have hlo : lo.toNat < 256 := lo.isLt
  have hlo' : lo'.toNat < 256 := lo'.isLt
  exact Prod.ext (BitVec.eq_of_toNat_eq (by dsimp only; omega)) (BitVec.eq_of_toNat_eq (by dsimp only; omega))

theorem validate_eq_decide (d : List Byte) (hi lo : Byte) :
    validate d hi lo = decide (byteSum d % 65536 = hi.toNat * 256 + lo.toNat) := by
  rw [Bool.eq_iff_iff, validate_iff, decide_eq_true_iff, ← BitVec.toNat_inj, checksum_toNat, be16_toNat]

/-- A single byte is too small to wrap, so the checksum tells any two of them apart wherever they stand. -/
theorem byte_eq_of_checksum_eq {a b : List Byte} {x y : Byte}
    (h : checksum (a ++ [x] ++ b) = checksum (a ++ [y] ++ b)) : x = y := by
  have hsum : checksum [x] = checksum [y] := by
    simpa only [checksum_append, BitVec.add_left_inj, BitVec.add_right_inj] using h
  have hbody : ∀ z : Byte, (checksum [z]).toNat = z.toNat := fun z =>
    checksum_toNat_of_body (body := [z]) (Nat.le_of_ble_eq_true rfl)
  exact BitVec.eq_of_toNat_eq (by rw [← hbody x, ← hbody y, hsum])

/-! ### The obligations -/

/-- Settles O34: the accumulator of 16 bits holds the sum modulo 65536. -/
theorem checksumIsTheSumModulo65536 : Obligations.ChecksumIsTheSumModulo65536 := by
  intro s d
  rw [← checksum_toNat, BitVec.ofNat_toNat, BitVec.setWidth_eq]
  rfl

/-- Settles O35: the two words are equal exactly where their numbers are. -/
theorem validateComparesWithTheBigEndianPair : Obligations.ValidateComparesWithTheBigEndianPair := by
  intro s d hi lo
  rw [← validate_eq_decide]
  rfl

/-- Settles O36: each law is the law of the sum of the bytes. -/
theorem checksumLaws : Obligations.ChecksumLaws := by
  refine ⟨checksum_append, fun _ _ => checksum_eq_of_perm, fun body hlen => ?_, checksum_append_replicate_zero⟩
  have hle : byteSum body ≤ 64515 := byteSum_le_of_body hlen
  refine ⟨checksum_toNat_of_body hlen, hle, ?_⟩
  rw [checksumPair_fst_toNat, checksum_toNat_of_body hlen]
  exact Nat.div_le_div_right hle

/-- Settles O37: the checksum is one word, which has one pair, and no other byte in the same place gives it. -/
theorem checksumDetectsOneChange : Obligations.ChecksumDetectsOneChange := by
  refine ⟨fun d hi lo hi' lo' hv hne => ?_, fun a b x y hi lo hv hne => ?_⟩
  · rw [validate_iff] at hv
    rw [validate_eq_false_iff, hv]
    exact fun heq => hne (be16_inj heq).symm
  · rw [validate_iff] at hv
    rw [validate_eq_false_iff, ← hv]
    exact fun heq => hne (byte_eq_of_checksum_eq heq).symm

end Sys2Proof.Machine
end

section
/-! PROOF. DECODE: each field as the little-endian number at its offset, the bytes DECODE does not read, ENCODE as its
inverse, and what the fixed-point fields denote (spec R12, R13, R50, R130 to R150). -/

namespace Sys2Proof.Machine

/-! ### Slices and the values at them -/

theorem slice_append_slice {a b c : Nat} (hab : a ≤ b) (hbc : b ≤ c) (s : List Byte) :
    slice a b s ++ slice b c s = slice a c s := by
  have hb : b = a + (b - a) := by omega
  simp only [slice, List.drop_take]
  rw [show c - a = (b - a) + (c - b) by omega, List.take_add, List.drop_drop, ← hb]

theorem slice_byte {s : List Byte} {o : Nat} (h : o < s.length) : slice o (o + 1) s = [byteAt s o] := by
  simp [slice, List.drop_take, List.take_one, byteAt, h]

theorem slice_pair {s : List Byte} {o : Nat} (h : o + 2 ≤ s.length) :
    slice o (o + 2) s = [byteAt s o, byteAt s (o + 1)] := by
  rw [← slice_append_slice (Nat.le_add_right o 1) (Nat.le_succ (o + 1)), slice_byte (by omega), slice_byte (by omega)]
  rfl

theorem leNat_append (a b : List Byte) : leNat (a ++ b) = leNat a + 256 ^ a.length * leNat b := by
  induction a with
  | nil => simp [leNat]
  | cons x xs ih => simp only [List.cons_append, leNat, ih, List.length_cons]; ring

theorem leNat_slice_byte {s : List Byte} {o : Nat} (h : o < s.length) :
    leNat (slice o (o + 1) s) = (byteAt s o).toNat := by
  rw [slice_byte h]; rfl

theorem leNat_slice_le16 {s : List Byte} {o : Nat} (h : o + 2 ≤ s.length) :
    leNat (slice o (o + 2) s) = (le16 s o).toNat := by
  rw [slice_pair h, le16_toNat]; rfl

theorem leNat_slice_le32 {s : List Byte} {o : Nat} (h : o + 4 ≤ s.length) :
    leNat (slice o (o + 4) s) = (le32 s o).toNat := by
  have hlen : (slice o (o + 2) s).length = 2 := by rw [slice_length]; omega
  rw [← slice_append_slice (Nat.le_add_right o 2) (Nat.le_add_right (o + 2) 2), leNat_append, hlen,
    leNat_slice_le16 (by omega), leNat_slice_le16 (by omega), le32_toNat]
  rfl

theorem leNat_slice_le64 {s : List Byte} {o : Nat} (h : o + 8 ≤ s.length) :
    leNat (slice o (o + 8) s) = (le64 s o).toNat := by
  have hlen : (slice o (o + 4) s).length = 4 := by rw [slice_length]; omega
  rw [← slice_append_slice (Nat.le_add_right o 4) (Nat.le_add_right (o + 4) 4), leNat_append, hlen,
    leNat_slice_le32 (by omega), leNat_slice_le32 (by omega), le64_toNat]
  rfl

theorem sint16_eq_signed16 (v : BitVec 16) : sint16 v = signed16 v.toNat := rfl

theorem signed16_leNat_slice {s : List Byte} {o : Nat} (h : o + 2 ≤ s.length) :
    signed16 (leNat (slice o (o + 2) s)) = sint16 (le16 s o) := by
  rw [leNat_slice_le16 h, sint16_eq_signed16]

/-! ### The fields of record data that holds an image (spec R134 to R146) -/

section
variable {r : List Byte} (h : Config.recordLen ≤ r.length)
include h

theorem fieldId_toNat : (fieldId r).toNat = leNat (slice 0 2 r) :=
  (leNat_slice_le16 (o := 0) (le_trans (by decide) h)).symm

theorem fieldSyncId_toNat : (fieldSyncId r).toNat = leNat (slice 2 4 r) :=
  (leNat_slice_le16 (o := 2) (le_trans (by decide) h)).symm

theorem fieldTimeOffsetMs_eq : fieldTimeOffsetMs r = signed16 (leNat (slice 4 6 r)) :=
  (signed16_leNat_slice (o := 4) (le_trans (by decide) h)).symm

theorem fieldLatitude_toNat : (fieldLatitude r).toNat = leNat (slice 8 16 r) :=
  (leNat_slice_le64 (o := 8) (le_trans (by decide) h)).symm

theorem fieldLongitude_toNat : (fieldLongitude r).toNat = leNat (slice 16 24 r) :=
  (leNat_slice_le64 (o := 16) (le_trans (by decide) h)).symm

theorem fieldHeading_toNat : (fieldHeading r).toNat = leNat (slice 24 28 r) :=
  (leNat_slice_le32 (o := 24) (le_trans (by decide) h)).symm

theorem fieldCovPos_toNat : (fieldCovPos r).toNat = leNat (slice 28 32 r) :=
  (leNat_slice_le32 (o := 28) (le_trans (by decide) h)).symm

theorem fieldSpeedX_eq : fieldSpeedX r = signed16 (leNat (slice 32 34 r)) :=
  (signed16_leNat_slice (o := 32) (le_trans (by decide) h)).symm

theorem fieldSpeedY_eq : fieldSpeedY r = signed16 (leNat (slice 34 36 r)) :=
  (signed16_leNat_slice (o := 34) (le_trans (by decide) h)).symm

theorem fieldRotSpeed_eq : fieldRotSpeed r = signed16 (leNat (slice 36 38 r)) :=
  (signed16_leNat_slice (o := 36) (le_trans (by decide) h)).symm

theorem fieldDriveMode_toNat : (fieldDriveMode r).toNat = leNat (slice 38 39 r) :=
  (leNat_slice_byte (o := 38) (le_trans (by decide) h)).symm

theorem fieldAuxDataStatus_toNat : (fieldAuxDataStatus r).toNat = leNat (slice 39 40 r) :=
  (leNat_slice_byte (o := 39) (le_trans (by decide) h)).symm

end

/-! ### The record of an image -/

/-- The record DECODE gives for data that holds an image (spec R130). -/
def imageRecord (r : List Byte) : StatusRecord :=
  ⟨fieldId r, fieldSyncId r, fieldTimeOffsetMs r, fieldLatitude r, fieldLongitude r, fieldHeading r, fieldCovPos r,
    fieldSpeedX r, fieldSpeedY r, fieldRotSpeed r, fieldDriveMode r, fieldAuxDataStatus r⟩

theorem decodeRecord_of_image {r : List Byte} (h : Config.recordLen ≤ r.length) :
    decodeRecord r = .ok (imageRecord r) := if_neg (Nat.not_lt.2 h)

theorem eq_imageRecord_of_decodeRecord {r : List Byte} {x : StatusRecord} (h : decodeRecord r = .ok x) :
    x = imageRecord r := by
  rw [decodeRecord_of_image ((decodeRecord_eq_ok_iff r).1 ⟨x, h⟩)] at h
  exact (Except.ok.inj h).symm

theorem inRange_iff (x : StatusRecord) : x.inRange = true ↔
    isI16 x.timeOffsetMs = true ∧ isI16 x.speedX = true ∧ isI16 x.speedY = true ∧ isI16 x.rotSpeed = true := by
  simp only [StatusRecord.inRange, Bool.and_eq_true, and_assoc]

theorem imageRecord_inRange (r : List Byte) : (imageRecord r).inRange = true :=
  (inRange_iff _).2 ⟨sint16_range _, sint16_range _, sint16_range _, sint16_range _⟩

/-! ### The rows as instructions -/

theorem exec_decode_of_short {r : List Byte} (h : r.length < Config.recordLen) (s : State) :
    exec (.decode r) s = .next { s with result := .tooShort } := by
  change returnValue (decodeResult r) s = _
  rw [decodeResult, decodeRecord_short h]
  rfl

theorem exec_decode_of_image {r : List Byte} (h : Config.recordLen ≤ r.length) (s : State) :
    exec (.decode r) s = .next { s with result := .record (imageRecord r) } := by
  change returnValue (decodeResult r) s = _
  rw [decodeResult, decodeRecord_of_image h]
  rfl

theorem exec_field_of_short {r : List Byte} {i : Instr} {s : State} (h : r.length < Config.recordLen)
    (hi : ∃ v, exec i s = returnValue (fieldResult r v) s) : exec i s = .next { s with result := .tooShort } := by
  obtain ⟨v, hv⟩ := hi
  rw [hv, fieldResult, if_pos h]
  rfl

theorem exec_field_of_image {r : List Byte} {i : Instr} {s : State} {v w : Result} (h : Config.recordLen ≤ r.length)
    (hi : exec i s = returnValue (fieldResult r v) s) (hv : v = w) : exec i s = .next { s with result := w } := by
  rw [hi, fieldResult, if_neg (Nat.not_lt.2 h), hv]
  rfl

theorem eq_ofNat_of_toNat_eq {w n : Nat} {v : BitVec w} (h : v.toNat = n) : v = BitVec.ofNat w n := by
  rw [← h, BitVec.ofNat_toNat, BitVec.setWidth_eq]

/-! ### The bytes DECODE does not read -/

theorem le16_congr {s t : List Byte} {o : Nat} (h : ∀ i, o ≤ i → i < o + 2 → byteAt s i = byteAt t i) :
    le16 s o = le16 t o := by
  rw [le16, le16, h o (by omega) (by omega), h (o + 1) (by omega) (by omega)]

theorem le32_congr {s t : List Byte} {o : Nat} (h : ∀ i, o ≤ i → i < o + 4 → byteAt s i = byteAt t i) :
    le32 s o = le32 t o := by
  rw [le32, le32, le16_congr fun i _ _ => h i (by omega) (by omega),
    le16_congr (o := o) fun i _ _ => h i (by omega) (by omega)]

theorem le64_congr {s t : List Byte} {o : Nat} (h : ∀ i, o ≤ i → i < o + 8 → byteAt s i = byteAt t i) :
    le64 s o = le64 t o := by
  rw [le64, le64, le32_congr fun i _ _ => h i (by omega) (by omega),
    le32_congr (o := o) fun i _ _ => h i (by omega) (by omega)]

theorem imageRecord_congr {r t : List Byte}
    (hread : ∀ i < Config.recordLen, i ≠ 6 → i ≠ 7 → byteAt r i = byteAt t i) : imageRecord r = imageRecord t := by
  have hbytes {o n : Nat} (hin : o + n ≤ 40) (hskip : o + n ≤ 6 ∨ 8 ≤ o) (i : Nat) (hlo : o ≤ i) (hhi : i < o + n) :
      byteAt r i = byteAt t i := hread i (lt_of_lt_of_le hhi hin) (by omega) (by omega)
  have h16 (o : Nat) (hin : o + 2 ≤ 40) (hskip : o + 2 ≤ 6 ∨ 8 ≤ o) : le16 r o = le16 t o :=
    le16_congr (hbytes hin hskip)
  have h32 (o : Nat) (hin : o + 4 ≤ 40) (hskip : o + 4 ≤ 6 ∨ 8 ≤ o) : le32 r o = le32 t o :=
    le32_congr (hbytes hin hskip)
  have h64 (o : Nat) (hin : o + 8 ≤ 40) (hskip : o + 8 ≤ 6 ∨ 8 ≤ o) : le64 r o = le64 t o :=
    le64_congr (hbytes hin hskip)
  simp only [imageRecord, fieldId, fieldSyncId, fieldTimeOffsetMs, fieldLatitude, fieldLongitude, fieldHeading,
    fieldCovPos, fieldSpeedX, fieldSpeedY, fieldRotSpeed, fieldDriveMode, fieldAuxDataStatus]
  simp (disch := omega) only [h16, h32, h64, hbytes (o := 38) (n := 2)]

/-- DECODE reads the first 40 bytes but the padding, and of the length only whether it reaches 40 (spec R137, R150). -/
theorem decodeRecord_congr {r t : List Byte} (hlen : Config.recordLen ≤ r.length ↔ Config.recordLen ≤ t.length)
    (hread : ∀ i < Config.recordLen, i ≠ 6 → i ≠ 7 → byteAt r i = byteAt t i) : decodeRecord r = decodeRecord t := by
  by_cases hr : Config.recordLen ≤ r.length
  · rw [decodeRecord_of_image hr, decodeRecord_of_image (hlen.1 hr), imageRecord_congr hread]
  · rw [decodeRecord_short (Nat.lt_of_not_le hr), decodeRecord_short (Nat.lt_of_not_le (mt hlen.2 hr))]

theorem byteAt_replace_middle (a b : List Byte) {m n : List Byte} (hlen : m.length = n.length) {i : Nat}
    (h : i < a.length ∨ a.length + m.length ≤ i) : byteAt (a ++ m ++ b) i = byteAt (a ++ n ++ b) i := by
  rcases h with h | h
  · simp only [List.append_assoc, byteAt_append_left _ h]
  · obtain ⟨j, rfl⟩ := Nat.exists_eq_add_of_le h
    have hm : byteAt (a ++ m ++ b) ((a ++ m).length + j) = byteAt b j := byteAt_append_right _ _ _
    have hn : byteAt (a ++ n ++ b) ((a ++ n).length + j) = byteAt b j := byteAt_append_right _ _ _
    rw [List.length_append] at hm hn
    rw [hm, hlen, hn]

/-! ### ENCODE and DECODE (spec R149) -/

theorem sint16_eq_toInt (v : BitVec 16) : sint16 v = v.toInt := by
  rw [BitVec.toInt_eq_toNat_cond, sint16]
  split <;> split <;> omega

theorem pattern16_sint16 (v : BitVec 16) : pattern16 (sint16 v) = v := by
  rw [pattern16, sint16_eq_toInt, BitVec.ofInt_toInt]

theorem isI16_iff (n : Int) : isI16 n = true ↔ -32768 ≤ n ∧ n ≤ 32767 := by
  simp [isI16]

theorem sint16_pattern16 {n : Int} (h : isI16 n = true) : sint16 (pattern16 n) = n := by
  rw [isI16_iff] at h
  rw [pattern16, sint16_eq_toInt]
  exact BitVec.toInt_ofInt_eq_self (by decide) h.1 (by omega)

theorem extractLsb'_append_halves {n : Nat} (v : BitVec (n + n)) : v.extractLsb' n n ++ v.extractLsb' 0 n = v :=
  (BitVec.extractLsb'_append_extractLsb'_eq_extractLsb' (Nat.zero_add n).symm).trans BitVec.extractLsb'_eq_self

theorem le16_of_drop {s rest : List Byte} {o : Nat} {v : BitVec 16} (h : s.drop o = bytesLe16 v ++ rest) :
    le16 s o = v := by
  have hlo : byteAt s o = v.extractLsb' 0 8 := by rw [← Nat.add_zero o, ← byteAt_drop, h]; rfl
  have hhi : byteAt s (o + 1) = v.extractLsb' 8 8 := by rw [← byteAt_drop, h]; rfl
  rw [le16, hlo, hhi]
  exact extractLsb'_append_halves (n := 8) v

theorem le32_of_drop {s rest : List Byte} {o : Nat} {v : BitVec 32} (h : s.drop o = bytesLe32 v ++ rest) :
    le32 s o = v := by
  have hlo : le16 s o = v.extractLsb' 0 16 := le16_of_drop (h.trans (List.append_assoc ..))
  have hhi : le16 s (o + 2) = v.extractLsb' 16 16 := le16_of_drop (rest := rest) (by rw [← List.drop_drop, h]; rfl)
  rw [le32, hlo, hhi]
  exact extractLsb'_append_halves (n := 16) v

theorem le64_of_drop {s rest : List Byte} {o : Nat} {v : BitVec 64} (h : s.drop o = bytesLe64 v ++ rest) :
    le64 s o = v := by
  have hlo : le32 s o = v.extractLsb' 0 32 := le32_of_drop (h.trans (List.append_assoc ..))
  have hhi : le32 s (o + 4) = v.extractLsb' 32 32 := le32_of_drop (rest := rest) (by rw [← List.drop_drop, h]; rfl)
  rw [le64, hlo, hhi]
  exact extractLsb'_append_halves (n := 32) v

theorem sint16_of_drop {s rest : List Byte} {o : Nat} {n : Int} (hn : isI16 n = true)
    (h : s.drop o = bytesLe16 (pattern16 n) ++ rest) : sint16 (le16 s o) = n := by
  rw [le16_of_drop h, sint16_pattern16 hn]

/-- Behind the offset of a field, what ENCODE wrote goes on with the bytes of that field. -/
theorem imageRecord_encodeRecord {x : StatusRecord} (p q : Byte) (h : x.inRange = true) :
    imageRecord (encodeRecord x p q) = x := by
  obtain ⟨htime, hx, hy, hrot⟩ := (inRange_iff x).1 h
  obtain ⟨id, syncId, time, lat, lon, heading, cov, sx, sy, rot, mode, aux⟩ := x
  rw [imageRecord, StatusRecord.mk.injEq]
  simp only [encodeRecord, List.append_assoc]
  exact ⟨le16_of_drop rfl, le16_of_drop rfl, sint16_of_drop htime rfl, le64_of_drop rfl, le64_of_drop rfl,
    le32_of_drop rfl, le32_of_drop rfl, sint16_of_drop hx rfl, sint16_of_drop hy rfl, sint16_of_drop hrot rfl,
    rfl, rfl⟩

theorem encodeRecord_length (x : StatusRecord) (p q : Byte) : (encodeRecord x p q).length = Config.recordLen := rfl

theorem bytesLe16_le16 {s : List Byte} {o : Nat} (h : o + 2 ≤ s.length) :
    bytesLe16 (le16 s o) = slice o (o + 2) s := by
  rw [slice_pair h, bytesLe16, le16, BitVec.extractLsb'_append_eq_right, BitVec.extractLsb'_append_eq_left]

theorem bytesLe32_le32 {s : List Byte} {o : Nat} (h : o + 4 ≤ s.length) :
    bytesLe32 (le32 s o) = slice o (o + 4) s := by
  rw [bytesLe32, le32, BitVec.extractLsb'_append_eq_right, BitVec.extractLsb'_append_eq_left,
    bytesLe16_le16 (by omega), bytesLe16_le16 (by omega), slice_append_slice (by omega) (by omega)]

theorem bytesLe64_le64 {s : List Byte} {o : Nat} (h : o + 8 ≤ s.length) :
    bytesLe64 (le64 s o) = slice o (o + 8) s := by
  rw [bytesLe64, le64, BitVec.extractLsb'_append_eq_right, BitVec.extractLsb'_append_eq_left,
    bytesLe32_le32 (by omega), bytesLe32_le32 (by omega), slice_append_slice (by omega) (by omega)]

theorem encodeRecord_imageRecord {r : List Byte} (h : Config.recordLen ≤ r.length) :
    encodeRecord (imageRecord r) (byteAt r 6) (byteAt r 7) = r.take Config.recordLen := by
  rw [Config.recordLen] at h
  calc encodeRecord (imageRecord r) (byteAt r 6) (byteAt r 7)
    _ = slice 0 2 r ++ slice 2 4 r ++ slice 4 6 r ++ slice 6 8 r ++ slice 8 16 r ++ slice 16 24 r ++ slice 24 28 r ++
        slice 28 32 r ++ slice 32 34 r ++ slice 34 36 r ++ slice 36 38 r ++ slice 38 40 r := by
      rw [slice_pair (o := 6) (by omega), slice_pair (o := 38) (by omega)]
      simp (disch := omega) only [encodeRecord, imageRecord, fieldId, fieldSyncId, fieldTimeOffsetMs, fieldLatitude,
        fieldLongitude, fieldHeading, fieldCovPos, fieldSpeedX, fieldSpeedY, fieldRotSpeed, fieldDriveMode,
        fieldAuxDataStatus, pattern16_sint16, bytesLe16_le16, bytesLe32_le32, bytesLe64_le64, Nat.reduceAdd]
    _ = slice 0 40 r := by simp (disch := omega) only [slice_append_slice]
    _ = r.take 40 := rfl

/-! ### What a fixed-point field denotes (spec R148) -/

theorem denotedSpeed_mul (raw : Int) : denotedSpeed raw * 1000 = raw :=
  div_mul_cancel₀ _ (Nat.cast_ne_zero.2 (by decide))

theorem denotedSpeed_bounds {raw : Int} (h : isI16 raw = true) :
    (-32768 : Rat) / 1000 ≤ denotedSpeed raw ∧ denotedSpeed raw ≤ 32767 / 1000 := by
  obtain ⟨hlo, hhi⟩ := (isI16_iff raw).1 h
  exact ⟨div_le_div_of_nonneg_right (by exact_mod_cast hlo) (by norm_num),
    div_le_div_of_nonneg_right (by exact_mod_cast hhi) (by norm_num)⟩

theorem isI16_of_mem_speeds {x : StatusRecord} (h : x.inRange = true) :
    ∀ raw ∈ [x.speedX, x.speedY, x.rotSpeed], isI16 raw = true := by
  obtain ⟨-, hx, hy, hrot⟩ := (inRange_iff x).1 h
  exact List.forall_mem_cons.2 ⟨hx, List.forall_mem_cons.2 ⟨hy, List.forall_mem_singleton.2 hrot⟩⟩

/-! ### The obligations -/

/-- Settles O38: the record of an image has the twelve fields, and each of them is the number at its offset. -/
theorem decodeGivesTheTwelveFields : Obligations.DecodeGivesTheTwelveFields := fun s _ =>
  ⟨fun h => exec_decode_of_short h s, fun h => ⟨_, exec_decode_of_image h s, fieldId_toNat h, fieldSyncId_toNat h,
    fieldTimeOffsetMs_eq h, fieldLatitude_toNat h, fieldLongitude_toNat h, fieldHeading_toNat h, fieldCovPos_toNat h,
    fieldSpeedX_eq h, fieldSpeedY_eq h, fieldRotSpeed_eq h, fieldDriveMode_toNat h, fieldAuxDataStatus_toNat h⟩⟩

/-- Settles O39: each row returns its field, which is the number at its offset. -/
theorem smallRecordFields : Obligations.SmallRecordFields := fun _ _ h =>
  ⟨exec_field_of_image h rfl (congrArg _ (eq_ofNat_of_toNat_eq (fieldId_toNat h))),
    exec_field_of_image h rfl (congrArg _ (eq_ofNat_of_toNat_eq (fieldSyncId_toNat h))),
    exec_field_of_image h rfl (congrArg _ (fieldTimeOffsetMs_eq h)),
    exec_field_of_image h rfl rfl,
    exec_field_of_image h rfl (congrArg _ (fieldSpeedX_eq h)),
    exec_field_of_image h rfl (congrArg _ (fieldSpeedY_eq h)),
    exec_field_of_image h rfl (congrArg _ (fieldRotSpeed_eq h)),
    exec_field_of_image h rfl (congrArg _ (eq_ofNat_of_toNat_eq (fieldDriveMode_toNat h))),
    exec_field_of_image h rfl (congrArg _ (eq_ofNat_of_toNat_eq (fieldAuxDataStatus_toNat h)))⟩

/-- Settles O40: each float row returns its field, which is the pattern of the number at its offset. -/
theorem floatRecordFieldsAreBitPatterns : Obligations.FloatRecordFieldsAreBitPatterns := fun _ _ h =>
  ⟨exec_field_of_image h rfl (congrArg _ (eq_ofNat_of_toNat_eq (fieldLatitude_toNat h))),
    exec_field_of_image h rfl (congrArg _ (eq_ofNat_of_toNat_eq (fieldLongitude_toNat h))),
    exec_field_of_image h rfl (congrArg _ (eq_ofNat_of_toNat_eq (fieldHeading_toNat h))),
    exec_field_of_image h rfl (congrArg _ (eq_ofNat_of_toNat_eq (fieldCovPos_toNat h)))⟩

/-- Settles O42: neither the surplus bytes nor the padding are among the bytes DECODE reads. -/
theorem surplusAndPaddingDoNotMatter : Obligations.SurplusAndPaddingDoNotMatter := by
  refine ⟨fun r extra h => ?_, fun a b p q p' q' ha => ?_⟩
  · have hlen : Config.recordLen ≤ (r ++ extra).length := h.trans (by simp)
    exact decodeRecord_congr (iff_of_true hlen h) fun i hi _ _ => byteAt_append_left extra (hi.trans_le h)
  · refine decodeRecord_congr (by simp) fun i _ h6 h7 => byteAt_replace_middle a b (by rfl) ?_
    simp only [ha, List.length_cons, List.length_nil]
    omega

/-- Settles O43: each field is read where ENCODE wrote it, and the fields with the padding are the first 40 bytes. -/
theorem encodeAndDecodeRoundTrip : Obligations.EncodeAndDecodeRoundTrip := by
  refine ⟨fun x p q hx => ?_, fun r h => ?_⟩
  · rw [decodeRecord_of_image (encodeRecord_length x p q).ge, imageRecord_encodeRecord p q hx]
  · exact ⟨_, decodeRecord_of_image h, imageRecord_inRange r, encodeRecord_imageRecord h⟩

/-- Settles O44: a decoded speed is an `i16` value, and its denoted number is that value over 1000. -/
theorem fixedPointFieldsDenoteThousandths : Obligations.FixedPointFieldsDenoteThousandths := by
  intro r x hx raw hraw
  have hrange : x.inRange = true := eq_imageRecord_of_decodeRecord hx ▸ imageRecord_inRange r
  exact ⟨denotedSpeed_mul raw, denotedSpeed_bounds (isI16_of_mem_speeds hrange raw hraw)⟩

/-- Settles O41: every field row returns its field through the test of the length. -/
theorem noFieldOfAShortRecord : Obligations.NoFieldOfAShortRecord := by
  intro s r h i hi
  simp only [List.mem_cons, List.not_mem_nil, or_false] at hi
  refine exec_field_of_short h ?_
  rcases hi with rfl | rfl | rfl | rfl | rfl | rfl | rfl | rfl | rfl | rfl | rfl | rfl | rfl <;> exact ⟨_, rfl⟩

end Sys2Proof.Machine
end

section
/-! PROOF. The reassembler: FEED follows the extraction loop and the chunk boundaries and the noise do not matter
(spec R160 to R177, R331, R332), and what becomes of a frame of each class (spec R166 to R170). -/

namespace Sys2Proof.Machine

/-! ### The loop -/

/-- The loop with its fuel goes the way of the loop without fuel (spec R160, R171). -/
theorem drains_feedBuf_nil (buf : List Byte) : Drains buf (feedBuf [] buf).2 (feedBuf [] buf).1 := by
  induction buf using loop_induction with
  | noSentinel b hs =>
    have hf := (scan_eq_noSentinel_iff b).1 hs
    rw [feedBuf_noSentinel hs]
    dsimp only
    split
    · rename_i hlen
      exact .trimmed hf hlen
    · rename_i hlen
      exact .quiet hf (Nat.not_lt.1 hlen)
  | waiting b hs =>
    obtain ⟨off, hf, hw⟩ := (scan_eq_waiting_iff b).1 hs
    rw [feedBuf_waiting hs]
    by_cases h2 : b.length - off < 2
    · exact .lengthMissing hf h2
    · exact .incomplete hf (Nat.not_lt.1 h2) (hw.resolve_left h2)
  | complete b off total hs ih =>
    obtain ⟨hf, h2, rfl, h3⟩ := (scan_eq_complete_iff _ _ _).1 hs
    rw [feedBuf_complete hs, frameAt, memRead, Nat.add_sub_cancel_left]
    exact .extract hf h2 h3 ih

theorem drains_feedBuf (chunk buf : List Byte) : Drains (buf ++ chunk) (feedBuf chunk buf).2 (feedBuf chunk buf).1 := by
  rw [feedBuf_eq]
  exact drains_feedBuf_nil _

theorem feedBuf_nil_of_drained {buf : List Byte} (h : drained buf = true) : feedBuf [] buf = (buf, []) := by
  rcases (drained_iff buf).1 h with ⟨hs, hlen⟩ | hs
  · rw [feedBuf_noSentinel hs, if_neg (Nat.not_lt.2 hlen)]
  · exact feedBuf_waiting hs

/-- A drained buffer without a sentinel is within the soft bound (spec R33 iv, R332). -/
theorem length_le_of_drained {buf : List Byte} (h : drained buf = true) (hf : find Config.sentinel buf = none) :
    buf.length ≤ Config.bufSoftBound := by
  simpa [drained, hf] using h

/-- A drained buffer has, from its first sentinel on, at least one byte too few for the frame there, and a frame has at
most 257 bytes (spec R88, R332). -/
theorem length_sub_le_of_drained {buf : List Byte} {off : Nat} (h : drained buf = true)
    (hf : find Config.sentinel buf = some off) : buf.length - off ≤ 256 := by
  have hbyte := (byteAt buf (off + 1)).isLt
  simp only [drained, hf, Bool.or_eq_true, decide_eq_true_eq] at h
  omega

/-- The buffer is cut at the front only (spec R177 b). -/
theorem feedBuf_nil_suffix (buf : List Byte) : (feedBuf [] buf).1 <:+ buf := by
  induction buf using loop_induction with
  | noSentinel b hs =>
    rw [feedBuf_noSentinel hs]
    dsimp only
    split
    · exact last_suffix _ _
    · exact List.suffix_rfl
  | waiting b hs => rw [feedBuf_waiting hs]
  | complete b off total hs ih =>
    rw [feedBuf_complete hs]
    exact ih.trans (List.drop_suffix _ _)

theorem feedBuf_suffix (chunk buf : List Byte) : (feedBuf chunk buf).1 <:+ buf ++ chunk := by
  rw [feedBuf_eq]
  exact feedBuf_nil_suffix _

theorem feedBuf_append_suffix (chunk more buf : List Byte) :
    (feedBuf chunk buf).1 ++ more <:+ buf ++ (chunk ++ more) := by
  rw [← List.append_assoc]
  exact List.suffix_append_self_iff.2 (feedBuf_suffix chunk buf)

/-! ### The events of a frame -/

/-- The one event of a status frame: the sum of its body decides, then the length of its record data (spec R167). -/
theorem frameEvents_status (r : List Byte) (hi lo : Byte) (raw : List Byte) :
    frameEvents (.status r hi lo) raw =
      if (1 + byteSum r) % 65536 = hi.toNat * 256 + lo.toNat then
        if r.length < Config.recordLen then [.diag .decodeTooShort raw] else [.record (imageRecord r)]
      else [.diag .checksumMismatch raw] := by
  rw [frameEvents, validate_eq_decide, byteSum_cons]
  by_cases h : r.length < Config.recordLen
  · rw [decodeRecord_short h, if_pos h]
    simp [exceptionReport, Config.cmdStatus]
  · rw [decodeRecord_of_image (Nat.not_lt.1 h), if_neg h]
    simp [exceptionReport, Config.cmdStatus]

theorem frameEvents_length_le (f : Frame) (raw : List Byte) : (frameEvents f raw).length ≤ 1 := by
  cases f with
  | short p => exact Nat.zero_le _
  | unrec c r hi lo => exact Nat.zero_le _
  | status r hi lo =>
    rw [frameEvents_status]
    split
    · split <;> exact Nat.le_refl _
    · exact Nat.le_refl _

/-- Every frame takes at least two bytes and gives at most one event (spec R171). -/
theorem two_mul_feedBuf_nil_events_le (buf : List Byte) : 2 * (feedBuf [] buf).2.length ≤ buf.length := by
  induction buf using loop_induction with
  | noSentinel b hs =>
    rw [feedBuf_noSentinel hs]
    exact Nat.zero_le _
  | waiting b hs =>
    rw [feedBuf_waiting hs]
    exact Nat.zero_le _
  | complete b off total hs ih =>
    have hone := frameEvents_length_le (frameAt b off total) (rawAt b off total)
    have htwo := scan_complete_bounds hs
    rw [List.length_drop] at ih
    rw [feedBuf_complete hs, List.length_append]
    omega

/-! ### Noise -/

/-- What the loop sees of a buffer: its bytes from the first sentinel on (spec R174). -/
def live (buf : List Byte) : List Byte := buf.dropWhile (· != Config.sentinel)

theorem live_of_find_none {buf : List Byte} (h : find Config.sentinel buf = none) : live buf = [] :=
  List.dropWhile_eq_nil_iff.2 fun _ hb => bne_iff_ne.2 fun heq => (find_eq_none_iff _ _).1 h (heq ▸ hb)

theorem live_noise {noise : List Byte} (buf : List Byte) (h : find Config.sentinel noise = none) :
    live (noise ++ buf) = live buf :=
  List.dropWhile_append_of_pos fun _ hb => bne_iff_ne.2 fun heq => (find_eq_none_iff _ _).1 h (heq ▸ hb)

theorem live_of_find_some {buf : List Byte} {off : Nat} (h : find Config.sentinel buf = some off) :
    live buf = buf.drop off ∧ live buf ≠ [] := by
  obtain ⟨noise, post, rfl, hno, rfl⟩ := (find_eq_some_iff _ _ _).1 h
  rw [live_noise _ ((find_eq_none_iff _ _).2 hno), List.drop_left]
  exact ⟨rfl, List.cons_ne_nil _ _⟩

/-- A buffer is noise and then what the loop sees of it. -/
theorem exists_noise_append_live (buf : List Byte) :
    ∃ noise, find Config.sentinel noise = none ∧ noise ++ live buf = buf := by
  refine ⟨buf.takeWhile (· != Config.sentinel), ?_, List.takeWhile_append_dropWhile⟩
  rw [find_eq_none_iff]
  intro hmem
  simpa using List.mem_takeWhile_imp hmem

/-- Tails of one sequence in which the loop sees the same differ in noise only (spec R173). -/
theorem sameButNoise_of_live_eq {a b whole : List Byte} (ha : a <:+ whole) (hb : b <:+ whole) (h : live a = live b) :
    SameButNoise a b := by
  cases hfa : find Config.sentinel a with
  | none =>
    cases hfb : find Config.sentinel b with
    | none => exact .inr ⟨hfa, hfb, List.suffix_or_suffix_of_suffix ha hb⟩
    | some j => exact absurd (h.symm.trans (live_of_find_none hfa)) (live_of_find_some hfb).2
  | some i =>
    cases hfb : find Config.sentinel b with
    | none => exact absurd (h.trans (live_of_find_none hfb)) (live_of_find_some hfa).2
    | some j =>
      rw [(live_of_find_some hfa).1, (live_of_find_some hfb).1] at h
      exact .inl ⟨i, j, hfa, hfb, h⟩

/-- Two outcomes of FEED that agree on the events and on what the loop sees of the buffer left (spec R173). -/
def SameOutcome (x y : List Byte × List Output) : Prop := x.2 = y.2 ∧ live x.1 = live y.1

/-- Without a sentinel nothing is emitted, and the loop sees nothing of what it leaves, trimmed or not. -/
theorem feedBuf_of_find_none {buf : List Byte} (h : find Config.sentinel buf = none) :
    (feedBuf [] buf).2 = [] ∧ live (feedBuf [] buf).1 = [] := by
  refine ⟨?_, live_of_find_none (find_none_of_suffix (feedBuf_nil_suffix buf) h)⟩
  rw [feedBuf_noSentinel (scan_of_find_none h)]

/-- Noise in front of the buffer does not change the outcome (spec R174). -/
theorem sameOutcome_noise {noise : List Byte} (buf : List Byte) (h : find Config.sentinel noise = none) :
    SameOutcome (feedBuf [] (noise ++ buf)) (feedBuf [] buf) := by
  have hscan := scan_noise buf h
  cases hs : scan buf with
  | noSentinel =>
    rw [hs] at hscan
    obtain ⟨he, hl⟩ := feedBuf_of_find_none ((scan_eq_noSentinel_iff _).1 hscan)
    obtain ⟨he', hl'⟩ := feedBuf_of_find_none ((scan_eq_noSentinel_iff _).1 hs)
    exact ⟨he.trans he'.symm, hl.trans hl'.symm⟩
  | waiting =>
    rw [hs] at hscan
    rw [feedBuf_waiting hscan, feedBuf_waiting hs]
    exact ⟨rfl, live_noise buf h⟩
  | complete off total =>
    rw [hs] at hscan
    obtain ⟨hframe, hraw⟩ := frameAt_noise noise buf off total
    have hrest : (noise ++ buf).drop (noise.length + off + total) = buf.drop (off + total) := by
      rw [Nat.add_assoc, List.drop_length_add_append]
    rw [feedBuf_complete hscan, feedBuf_complete hs, hframe, hraw, hrest]
    exact ⟨rfl, rfl⟩

/-- What the loop does not see of the buffer does not change the outcome of FEED. -/
theorem sameOutcome_of_live_eq {x y : List Byte} (chunk : List Byte) (h : live x = live y) :
    SameOutcome (feedBuf chunk x) (feedBuf chunk y) := by
  obtain ⟨noise, hnoise, hx⟩ := exists_noise_append_live x
  obtain ⟨noise', hnoise', hy⟩ := exists_noise_append_live y
  obtain ⟨he, hl⟩ := sameOutcome_noise (live x ++ chunk) hnoise
  obtain ⟨he', hl'⟩ := sameOutcome_noise (live y ++ chunk) hnoise'
  rw [feedBuf_eq, feedBuf_eq chunk y, ← hx, ← hy, List.append_assoc, List.append_assoc]
  rw [h] at he hl ⊢
  exact ⟨he.trans he'.symm, hl.trans hl'.symm⟩

/-! ### Chunks -/

/-- FEED of two chunks: first the one, then the other on what the first has left (spec R173). -/
def feedTwice (a b buf : List Byte) : List Byte × List Output :=
  ((feedBuf b (feedBuf a buf).1).1, (feedBuf a buf).2 ++ (feedBuf b (feedBuf a buf).1).2)

theorem sameOutcome_feedTwice_nil (more buf : List Byte) :
    SameOutcome (feedBuf [] (buf ++ more)) (feedTwice [] more buf) := by
  rw [← feedBuf_eq, feedTwice]
  induction buf using loop_induction with
  | noSentinel b hs =>
    have hf := (scan_eq_noSentinel_iff b).1 hs
    obtain ⟨he, hl⟩ := feedBuf_of_find_none hf
    rw [he]
    exact sameOutcome_of_live_eq more ((live_of_find_none hf).trans hl.symm)
  | waiting b hs =>
    rw [feedBuf_waiting hs]
    exact ⟨rfl, rfl⟩
  | complete b off total hs ih =>
    obtain ⟨he, hl⟩ := ih
    obtain ⟨hframe, hraw⟩ := frameAt_append more hs
    have hrest : (b ++ more).drop (off + total) = b.drop (off + total) ++ more :=
      List.drop_append_of_le_length (scan_complete_bounds hs).2.2
    rw [feedBuf_eq, feedBuf_complete (scan_append_of_complete more hs), feedBuf_complete hs, hframe, hraw, hrest,
      ← feedBuf_eq]
    refine ⟨?_, hl⟩
    dsimp only
    rw [he, List.append_assoc]

/-- Where a byte sequence is cut into chunks does not change the outcome of FEED (spec R173). -/
theorem sameOutcome_feedTwice (a b buf : List Byte) : SameOutcome (feedBuf (a ++ b) buf) (feedTwice a b buf) := by
  rw [feedTwice, feedBuf_eq, feedBuf_eq a, ← List.append_assoc]
  exact sameOutcome_feedTwice_nil b (buf ++ a)

theorem feedTwice_suffix (a b buf : List Byte) : (feedTwice a b buf).1 <:+ buf ++ (a ++ b) :=
  (feedBuf_suffix b _).trans (feedBuf_append_suffix a b buf)

/-! ### FEED and RX as instructions -/

section
variable {s : State} (ha : s.active = true) (hs : s.hs = .streaming)
include ha hs

theorem exec_rx_of_streaming (b : Byte) : exec (.rx b) s = .next (feed [b] s) := by
  change execRx b s = _
  rw [execRx, ha, hs]
  rfl

theorem exec_rxStreaming_of_streaming (b : Byte) : exec (.rxStreaming b) s = .next (feed [b] s) :=
  whenSelected_of_true _ s ((inState_eq_true_iff s _).2 ⟨ha, hs⟩)

theorem exec_feed_of_fits {chunk : List Byte} (hfits : s.buf.length + chunk.length ≤ Config.bufCap) :
    exec (.feed chunk) s = .next (feed chunk s) := by
  change execFeed chunk s = _
  rw [execFeed, if_pos ((inState_eq_true_iff s _).2 ⟨ha, hs⟩), if_pos hfits]

end

/-- The bytes taken one by one from a drained buffer come to the outcome of FEED of them all (spec R172, R173). -/
theorem runInstrs_rx_of_streaming (bytes : List Byte) {s : State} (ha : s.active = true) (hs : s.hs = .streaming)
    (hd : drained s.buf = true) :
    ∃ t, runInstrs (bytes.map .rx) s = .next t ∧ t.out = (feed bytes s).out ∧
      live t.buf = live (feed bytes s).buf ∧ t.buf <:+ s.buf ++ bytes := by
  induction bytes generalizing s with
  | nil =>
    refine ⟨s, rfl, ?_⟩
    rw [feed_out, feed_buf, feedBuf_nil_of_drained hd, List.append_nil, List.append_nil]
    exact ⟨rfl, rfl, List.suffix_rfl⟩
  | cons b bs ih =>
    obtain ⟨t, ht, hout, hlive, hsuf⟩ := ih (s := feed [b] s) ha hs (feedBuf_drained [b] s.buf)
    obtain ⟨he, hl⟩ := sameOutcome_feedTwice [b] bs s.buf
    refine ⟨t, ?_, ?_, hlive.trans hl.symm, hsuf.trans (feedBuf_append_suffix [b] bs s.buf)⟩
    · rw [List.map_cons, runInstrs, exec_rx_of_streaming ha hs]
      exact ht
    · rw [hout, feed_out, feed_out, feed_out, List.append_assoc]
      exact congrArg (s.out ++ ·) he.symm

/-! ### The next frame -/

section
variable {noise p rest : List Byte} {n : Nat} (hn : find Config.sentinel noise = none) (hp : p.length = n)
  (hlen : n ≤ 255)
include hn hp hlen

/-- Noise, a whole frame and whatever follows: the scan finds that frame (spec R80, R164). -/
theorem scan_of_frame :
    scan (noise ++ (Config.sentinel :: BitVec.ofNat 8 n :: p) ++ rest) = .complete noise.length (2 + n) := by
  have hbyte : (BitVec.ofNat 8 n).toNat = n := by rw [BitVec.toNat_ofNat, Nat.mod_eq_of_lt (by omega)]
  have hfront : scan ((Config.sentinel :: BitVec.ofNat 8 n :: p) ++ rest) = .complete 0 (2 + n) :=
    (scan_eq_complete_iff _ _ _).2 ⟨rfl, by simp, by simp [hbyte], by simp [hp]; omega⟩
  rw [List.append_assoc, scan_noise _ hn, hfront]
  rfl

/-- The row of the frame that is next removes noise and frame and emits the frame's events (spec R165, R170; log 17). -/
theorem exec_frame_of_next {s : State} (ha : s.active = true) (hs : s.hs = .streaming)
    (hbuf : s.buf = noise ++ (Config.sentinel :: BitVec.ofNat 8 n :: p) ++ rest) :
    exec (classify p).toInstr s = .next { s with
      buf := rest
      out := s.out ++ frameEvents (classify p) (Config.sentinel :: BitVec.ofNat 8 n :: p) } := by
  have hscan : scan s.buf = .complete noise.length (2 + n) := hbuf ▸ scan_of_frame hn hp hlen
  have hraw : rawAt s.buf noise.length (2 + n) = Config.sentinel :: BitVec.ofNat 8 n :: p := by
    rw [hbuf, List.append_assoc]
    exact (frameAt_noise noise _ 0 _).2.trans (by simp [← hp, rawAt, memRead, slice, Nat.add_comm 2])
  have hframe : frameAt s.buf noise.length (2 + n) = classify p := by
    rw [hbuf, List.append_assoc]
    exact (frameAt_noise noise _ 0 _).1.trans (by simp [← hp, frameAt, memRead, slice, Nat.add_comm 2])
  have hdrop : s.buf.drop (noise.length + (2 + n)) = rest := hbuf ▸ List.drop_left' (by simp [hp]; omega)
  have hnext : nextFrame s.buf = some (classify p) := by rw [nextFrame, hscan, ← hframe]
  rw [exec_frame, execFrame, whenSelected_of_true _ s (by simp [ha, hs, hnext]), takeFrame, hscan]
  dsimp only
  rw [dropFront, hdrop, hframe, hraw]
  rfl

end

/-! ### The obligations -/

/-- Settles O20: RX in Streaming runs FEED of the one byte, whose outcome the loop without fuel gives. -/
theorem rxInStreamingIsFeed : Obligations.RxInStreamingIsFeed := by
  intro s b ha hs
  refine ⟨⟨_, _, drains_feedBuf [b] s.buf, ?_⟩, fun hfits => ?_⟩
  · rintro i (rfl | rfl)
    · exact exec_rx_of_streaming ha hs b
    · exact exec_rxStreaming_of_streaming ha hs b
  · rw [exec_rx_of_streaming ha hs, exec_feed_of_fits (chunk := [b]) ha hs hfits]

/-- Settles O21: within the capacity FEED runs, and its outcome is what the loop without fuel gives. -/
theorem feedFollowsTheExtractionLoop : Obligations.FeedFollowsTheExtractionLoop :=
  fun s chunk ha hs hfits => ⟨_, _, drains_feedBuf chunk s.buf, exec_feed_of_fits ha hs hfits⟩

/-- Settles O23: the loop ends in a drained buffer, and every event has cost it two bytes. -/
theorem feedLeavesNoCompleteFrame : Obligations.FeedLeavesNoCompleteFrame := by
  intro buf chunk
  refine ⟨feedBuf_drained chunk buf, ?_⟩
  rw [feedBuf_eq, ← List.length_append]
  exact two_mul_feedBuf_nil_events_le _

/-- Settles O24: both ways leave a tail of the same bytes, in which the loop sees the same. -/
theorem chunkBoundariesDoNotMatter : Obligations.ChunkBoundariesDoNotMatter := by
  intro buf a b
  obtain ⟨he, hl⟩ := sameOutcome_feedTwice a b buf
  exact ⟨he, sameButNoise_of_live_eq (feedBuf_suffix (a ++ b) buf) (feedTwice_suffix a b buf) hl⟩

/-- Settles O25: each RX is a chunk of one byte. -/
theorem byteSerialEqualsWholeChunk : Obligations.ByteSerialEqualsWholeChunk := by
  intro s bytes ha hs hd hfits
  obtain ⟨t, ht, hout, hlive, hsuf⟩ := runInstrs_rx_of_streaming bytes ha hs hd
  exact ⟨t, feed bytes s, ht, exec_feed_of_fits ha hs hfits, hout,
    sameButNoise_of_live_eq hsuf (feedBuf_suffix bytes s.buf) hlive⟩

/-- Settles O26: the loop does not see the noise. -/
theorem noiseNeverChangesAnEvent : Obligations.NoiseNeverChangesAnEvent :=
  fun _ buf chunk h => (sameOutcome_of_live_eq chunk (live_noise buf h)).1

/-- Settles O27: RX keeps the invariants, and R33 (iv) with the noise bound are the bounds. -/
theorem occupancyIsBounded : Obligations.OccupancyIsBounded := by
  intro s t b hinv hexec
  have hinv' : Inv t := hinv.reaction (reaction_of_execRx hexec)
  have hnone : find Config.sentinel t.buf = none → t.buf.length ≤ 1024 := fun hf => by
    exact length_le_of_drained hinv'.buf_drained hf
  have hsome (off : Nat) (hf : find Config.sentinel t.buf = some off) : off ≤ 1024 ∧ t.buf.length - off ≤ 256 :=
    ⟨hinv'.noise off hf, length_sub_le_of_drained hinv'.buf_drained hf⟩
  refine ⟨?_, hnone, hsome⟩
  cases hf : find Config.sentinel t.buf with
  | none => exact (hnone hf).trans (Nat.le_of_ble_eq_true rfl)
  | some off =>
    obtain ⟨hoff, hlen⟩ := hsome off hf
    omega

/-- Settles O28: each pass cuts at the front. -/
theorem bufferIsCutOnlyAtTheFront : Obligations.BufferIsCutOnlyAtTheFront :=
  fun buf chunk => feedBuf_suffix chunk buf

/-- Settles O30: the frame is next, and its one event is decided by the sum of its body and then by its length. -/
theorem frameStatusOutcome : Obligations.FrameStatusOutcome := by
  intro s noise r rest hi lo ha hs hn hr hbuf
  have hexec := exec_frame_of_next hn (p := 1 :: (r ++ [hi, lo])) (n := r.length + 3) (by simp) (by omega) ha hs hbuf
  rw [classify_status (c := 1) rfl, frameEvents_status] at hexec
  refine ⟨fun hsum => ?_, fun hsum (hshort : r.length < Config.recordLen) => ?_,
    fun hsum (himage : Config.recordLen ≤ r.length) => ⟨imageRecord r, decodeRecord_of_image himage, ?_⟩⟩
  · rwa [if_neg hsum] at hexec
  · rwa [if_pos hsum, if_pos hshort] at hexec
  · rwa [if_pos hsum, if_neg (Nat.not_lt.2 himage)] at hexec

/-- Settles O31: the frame is next, and neither class has an event. -/
theorem otherFramesAreDroppedSilently : Obligations.OtherFramesAreDroppedSilently := by
  intro s noise rest ha hs hn
  refine ⟨fun c hi lo r hc hr hbuf => ?_, fun p hp hbuf => ?_⟩
  · have hexec := exec_frame_of_next hn (p := c :: (r ++ [hi, lo])) (n := r.length + 3) (by simp) (by omega) ha hs hbuf
    rwa [classify_unrec hc, frameEvents, exceptionReport, List.append_nil] at hexec
  · have hexec := exec_frame_of_next hn rfl (by omega) ha hs hbuf
    rwa [classify_short (Nat.lt_succ_of_le hp), frameEvents, List.append_nil] at hexec

end Sys2Proof.Machine
end

section
/-! PROOF. The handshake: what SEND, RX and TICK answer in each state of a session, that `hs` changes only by the
transition table, and that TICKs alone end a wait exactly at its window (spec R200 to R218, R329). -/

namespace Sys2Proof.Machine

/-! ### An event and its dispatch line -/

/-- In state `h` of a session the event `e` and its line `l` have the one reaction `f` (spec R108). They are compared
where `active` and `hs` are written out, so that both evaluate. -/
theorem exec_of_line {s : State} {h : HandshakeState} {i e l : Instr} {f : State → State} (ha : s.active = true)
    (hs : s.hs = h) (hi : i = e ∨ i = l) (hline : exec l s = whenSelected (s.inState h) f s)
    (hevent : exec e { s with active := true, hs := h } = exec l { s with active := true, hs := h }) :
    exec i s = .next (f s) := by
  have hself : { s with active := true, hs := h } = s := by rw [← ha, ← hs]
  have hselected : exec l s = .next (f s) :=
    hline.trans (whenSelected_of_true f s ((inState_eq_true_iff s h).2 ⟨ha, hs⟩))
  rcases hi with rfl | rfl
  · rw [hself] at hevent
    exact hevent.trans hselected
  · exact hselected

/-! ### SEND -/

theorem exec_send_of_not_writePending {s : State} (h : ¬ s.writePending = true) : exec .send s = .next s := by
  rw [writePending_eq_true_iff] at h
  change execSend s = _
  rw [execSend]
  cases ha : s.active with
  | false => rfl
  | true =>
    cases hs : s.hs with
    | configSent => exact absurd ⟨ha, .inl hs⟩ h
    | runSent => exact absurd ⟨ha, .inr hs⟩ h
    | _ => rfl

/-! ### RX in a text state -/

/-- An instruction that runs the marker test answers as R202, R208 and R210 say, in the words of their obligations. -/
theorem exec_of_rxText {s t : State} {i : Instr} {m : List Byte} {matched : State → State} {b : Byte}
    (hexec : exec i s = .next (rxText m matched b s)) (hmatched : matched (s.setTxt (txtPush b s.txt)) = t) :
    (m <:+: (s.txt ++ [b]).drop (s.txt.length + 1 - Config.textWindow) → exec i s = .next t) ∧
    (¬ m <:+: (s.txt ++ [b]).drop (s.txt.length + 1 - Config.textWindow) →
      exec i s = .next { s with txt := (s.txt ++ [b]).drop (s.txt.length + 1 - Config.textWindow) }) := by
  rw [← txtPush_eq, hexec]
  rcases rxText_cases m matched b s with ⟨hin, heq⟩ | ⟨hout, heq⟩ <;> rw [heq]
  · exact ⟨fun _ => by rw [hmatched], fun h => absurd hin h⟩
  · exact ⟨fun h => absurd h hout, fun _ => rfl⟩

/-! ### TICK -/

theorem tickDetecting_of_eq {s : State} (h : s.timer + 1 = Config.detectWindow) : tickDetecting s = { s with
    timer := Config.detectWindow, hs := .streaming, txt := [], out := s.out ++ [.status .connected] } := by
  rw [← h]
  exact ((tickDetecting_cases s).resolve_right fun ⟨hne, _⟩ => hne h).2

theorem tickDetecting_of_ne {s : State} (h : s.timer + 1 ≠ Config.detectWindow) :
    tickDetecting s = { s with timer := s.timer + 1 } :=
  ((tickDetecting_cases s).resolve_left fun ⟨heq, _⟩ => h heq).2

theorem tickAck_of_eq {s : State} (h : s.timer + 1 = Config.ackTimeout) : tickAck s = { s with
    timer := Config.ackTimeout, hs := .failed, err := .handshakeTimeout, active := false, txt := [], buf := [],
    out := s.out ++ [.status .handshakeTimeout] } := by
  rw [← h]
  exact ((tickAck_cases s).resolve_right fun ⟨hne, _⟩ => hne h).2

theorem tickAck_of_ne {s : State} (h : s.timer + 1 ≠ Config.ackTimeout) :
    tickAck s = { s with timer := s.timer + 1 } :=
  ((tickAck_cases s).resolve_left fun ⟨heq, _⟩ => h heq).2

/-- TICK is ignored in every state that has no window (spec R217, R247). -/
theorem exec_tick_of_no_window {s : State} (h : tickWindow s.hs = none) : exec .tick s = .next s := by
  change execTick s = _
  rw [execTick]
  cases ha : s.active with
  | false => rfl
  | true =>
    cases hs : s.hs with
    | detectingInit | awaitingFirstAck | awaitingSecondAck =>
      rw [hs] at h
      cases h
    | _ => rfl

/-- The states with a window, and their windows (spec R203, R209, R211). -/
theorem tickWindow_cases {h : HandshakeState} {w : Ticks} (hw : tickWindow h = some w) :
    (h = .detectingInit ∧ w = Config.detectWindow) ∨
    ((h = .awaitingFirstAck ∨ h = .awaitingSecondAck) ∧ w = Config.ackTimeout) := by
  cases h <;> cases hw
  case detectingInit => exact .inl ⟨rfl, rfl⟩
  case awaitingFirstAck => exact .inr ⟨.inl rfl, rfl⟩
  case awaitingSecondAck => exact .inr ⟨.inr rfl, rfl⟩

section
variable {s : State} (ha : s.active = true)
include ha

theorem exec_tick_of_detectingInit (hs : s.hs = .detectingInit) :
    ∀ i : Instr, i = .tick ∨ i = .tickDetectingInit → exec i s = .next (tickDetecting s) :=
  fun _ hi => exec_of_line ha hs hi rfl rfl

theorem exec_tick_of_awaitingFirstAck (hs : s.hs = .awaitingFirstAck) :
    ∀ i : Instr, i = .tick ∨ i = .tickAwaitingFirstAck → exec i s = .next (tickAck s) :=
  fun _ hi => exec_of_line ha hs hi rfl rfl

theorem exec_tick_of_awaitingSecondAck (hs : s.hs = .awaitingSecondAck) :
    ∀ i : Instr, i = .tick ∨ i = .tickAwaitingSecondAck → exec i s = .next (tickAck s) :=
  fun _ hi => exec_of_line ha hs hi rfl rfl

theorem exec_tick_of_awaitingAck (hs : s.hs = .awaitingFirstAck ∨ s.hs = .awaitingSecondAck) :
    exec .tick s = .next (tickAck s) :=
  hs.elim (fun hs => exec_tick_of_awaitingFirstAck ha hs _ (.inl rfl))
    (fun hs => exec_tick_of_awaitingSecondAck ha hs _ (.inl rfl))

/-- Within its window a text state only counts the TICK (spec R203, R209, R211). -/
theorem exec_tick_counted {w : Ticks} (hw : tickWindow s.hs = some w) (hne : s.timer + 1 ≠ w) :
    exec .tick s = .next { s with timer := s.timer + 1 } := by
  rcases tickWindow_cases hw with ⟨hs, rfl⟩ | ⟨hs, rfl⟩
  · rw [exec_tick_of_detectingInit ha hs _ (.inl rfl), tickDetecting_of_ne hne]
  · rw [exec_tick_of_awaitingAck ha hs, tickAck_of_ne hne]

end

/-! ### TICKs one after the other -/

theorem runInstrs_append {is : List Instr} {s t : State} (js : List Instr) (h : runInstrs is s = .next t) :
    runInstrs (is ++ js) s = runInstrs js t := by
  induction is generalizing s with
  | nil =>
    cases h
    rfl
  | cons i is ih =>
    rw [runInstrs] at h
    rw [List.cons_append, runInstrs]
    split at h
    · exact ih h
    · cases h
    · cases h

/-- Fewer TICKs than remain of the window only add to `timer`, which does not wrap (spec R23, R329). -/
theorem runInstrs_ticks_within {w : Ticks} (n : Nat) {s : State} (ha : s.active = true)
    (hw : tickWindow s.hs = some w) (hn : s.timer.toNat + n < w.toNat) :
    runInstrs (List.replicate n .tick) s = .next { s with timer := s.timer + BitVec.ofNat 10 n } := by
  induction n generalizing s with
  | zero => simp [runInstrs]
  | succ n ih =>
    have hsucc : (s.timer + 1).toNat = s.timer.toNat + 1 := by bv_omega
    have hne : s.timer + 1 ≠ w := fun h => by rw [← h] at hn; omega
    have hcount : s.timer + 1 + BitVec.ofNat 10 n = s.timer + BitVec.ofNat 10 (n + 1) := by
      rw [BitVec.add_assoc, Nat.add_comm n 1, BitVec.ofNat_add]
      rfl
    rw [List.replicate_succ, runInstrs, exec_tick_counted ha hw hne, ← hcount]
    exact ih (s := { s with timer := s.timer + 1 }) ha hw (by rw [hsucc]; omega)

/-- As many TICKs as remain of the window come to what the last of them, at one tick before its end, answers. -/
theorem runInstrs_ticks_to_window {w : Ticks} {n : Nat} {s t : State} (ha : s.active = true)
    (hw : tickWindow s.hs = some w) (hlt : s.timer.toNat < w.toNat) (hn : s.timer.toNat + n = w.toNat)
    (hlast : exec .tick { s with timer := w - 1 } = .next t) :
    runInstrs (List.replicate n .tick) s = .next t := by
  obtain ⟨k, rfl⟩ : ∃ k, n = k + 1 := ⟨n - 1, by omega⟩
  have htimer : s.timer + BitVec.ofNat 10 k = w - 1 := by bv_omega
  have hcounted := runInstrs_ticks_within k ha hw (by omega)
  rw [List.replicate_succ', runInstrs_append [.tick] hcounted, htimer, runInstrs, hlast]
  rfl

/-! ### The marker rows -/

theorem exec_markNotInit_of_not_awaited {s : State}
    (h : ¬ (s.active = true ∧ s.hs = .detectingInit ∧ Config.markNotInit <:+: s.txt)) :
    exec .markNotInit s = .next s := by
  refine whenSelected_of_false matchNotInit s (Bool.eq_false_of_not_eq_true fun hsel => h ?_)
  rwa [Bool.and_eq_true, inState_eq_true_iff, contains_iff, and_assoc] at hsel

/-- MARK_OK where the first acknowledgement is awaited looks at the text only. -/
theorem exec_markOk_of_awaitingFirstAck {s : State} (ha : s.active = true) (hs : s.hs = .awaitingFirstAck) :
    exec .markOk s = whenSelected (contains s.txt Config.markOk) matchFirstOk s :=
  if_pos ((inState_eq_true_iff s _).2 ⟨ha, hs⟩)

theorem exec_markOk_of_not_awaitingFirstAck {s : State} (h : ¬ (s.active = true ∧ s.hs = .awaitingFirstAck)) :
    exec .markOk s =
      whenSelected (s.inState .awaitingSecondAck && contains s.txt Config.markOk) matchSecondOk s :=
  if_neg (mt (inState_eq_true_iff s _).1 h)

theorem exec_markOk_of_not_awaited {s : State} (h : ¬ (s.active = true ∧
    (s.hs = .awaitingFirstAck ∨ s.hs = .awaitingSecondAck) ∧ Config.markOk <:+: s.txt)) :
    exec .markOk s = .next s := by
  by_cases hfirst : s.active = true ∧ s.hs = .awaitingFirstAck
  · obtain ⟨ha, hs⟩ := hfirst
    rw [exec_markOk_of_awaitingFirstAck ha hs]
    exact whenSelected_of_false _ s ((contains_eq_false_iff _ _).2 fun hin => h ⟨ha, .inl hs, hin⟩)
  · rw [exec_markOk_of_not_awaitingFirstAck hfirst]
    refine whenSelected_of_false _ s (Bool.eq_false_of_not_eq_true fun hsel => ?_)
    rw [Bool.and_eq_true, inState_eq_true_iff, contains_iff] at hsel
    obtain ⟨⟨ha, hs⟩, hin⟩ := hsel
    exact h ⟨ha, .inr hs, hin⟩

/-! ### The obligations -/

/-- Settles O55: what an event answers is one of its reactions; those that write `hs` are the rows of the table, and
CLOSED in Streaming is with the reactions that leave it. -/
theorem handshakeChangesOnlyByTheTable : Obligations.HandshakeChangesOnlyByTheTable := by
  intro s t w h hne
  have hr : Reaction s (decodeEvent w) t := reaction_of_exec h
  clear h
  generalize decodeEvent w = e at hr ⊢
  cases hr with
  | reset => simp
  | start ha => simp [ha]
  | closed ha =>
    have hs : s.hs ≠ .streaming := fun hs => hne (by simp [hs])
    simp [ha, hs]
  | detectionEnds ha hs hw => simpa [ha, hs] using hw
  | ackExpires ha hs hw => rcases hs with hs | hs <;> simpa [ha, hs] using hw
  | notInitSeen b ha hs hm | firstOkSeen b ha hs hm | secondOkSeen b ha hs hm => simp [ha, hs, hm]
  | configWritten ha hs | runWritten ha hs => simp [ha, hs]
  | _ => exact absurd rfl hne

/-- Settles O19: all TICKs but the last are counted, and the last one ends the window. -/
theorem ticksEndAWaitExactlyAtItsWindow : Obligations.TicksEndAWaitExactlyAtItsWindow := by
  intro s w n ha hw hlt
  have hlast : w - 1 + 1 = w := BitVec.sub_add_cancel w 1
  refine ⟨runInstrs_ticks_within n ha hw, fun hn hs => ?_, fun hn hs => ?_⟩ <;>
    refine runInstrs_ticks_to_window ha hw hlt hn ?_
  · obtain ⟨-, rfl⟩ | ⟨hack, -⟩ := tickWindow_cases hw
    · rw [exec_tick_of_detectingInit (s := { s with timer := Config.detectWindow - 1 }) ha hs _ (.inl rfl),
        tickDetecting_of_eq hlast]
    · simp [hs] at hack
  · obtain ⟨hdet, -⟩ | ⟨hack, rfl⟩ := tickWindow_cases hw
    · exact absurd hdet hs
    · rw [exec_tick_of_awaitingAck (s := { s with timer := Config.ackTimeout - 1 }) ha hack, tickAck_of_eq hlast]

/-- Settles O7: in each write state SEND and its line send that state's string. -/
theorem sendWritesThePendingString : Obligations.SendWritesThePendingString :=
  fun _ ha =>
    ⟨fun hs _ hi => exec_of_line (f := sendConfig) ha hs hi rfl rfl,
      fun hs _ hi => exec_of_line (f := sendRun) ha hs hi rfl rfl⟩

/-- Settles O8: SEND where no write is pending lapses, and SEND.other has no other reaction. -/
theorem sendElsewhereChangesNothing : Obligations.SendElsewhereChangesNothing := by
  rintro s hno i (rfl | rfl)
  · exact exec_send_of_not_writePending (mt (writePending_eq_true_iff s).1 hno)
  · exact whenSelected_ignored _ s

/-- Settles O9: in each write state RX and its line hold the byte. -/
theorem rxInWriteStateIsHeld : Obligations.RxInWriteStateIsHeld :=
  fun _ b ha =>
    ⟨fun hs _ hi => exec_of_line (f := hold b) ha hs hi rfl rfl,
      fun hs _ hi => exec_of_line (f := hold b) ha hs hi rfl rfl⟩

/-- Settles O10: RX and its line run the marker test with `#NOT_INITIALIZED`. -/
theorem rxInDetectingInit : Obligations.RxInDetectingInit := by
  intro s b ha hs i hi
  have hexec : exec i s = .next (rxDetecting b s) := exec_of_line ha hs hi rfl rfl
  exact exec_of_rxText hexec (matchNotInit_setTxt _ s)

/-- Settles O11: RX and its line run the marker test with `#OK`, which opens RunSent. -/
theorem rxInAwaitingFirstAck : Obligations.RxInAwaitingFirstAck := by
  intro s b ha hs i hi
  have hexec : exec i s = .next (rxFirstAck b s) := exec_of_line ha hs hi rfl rfl
  exact exec_of_rxText hexec (matchFirstOk_setTxt _ s)

/-- Settles O12: RX and its line run the marker test with `#OK`, which opens Streaming. -/
theorem rxInAwaitingSecondAck : Obligations.RxInAwaitingSecondAck := by
  intro s b ha hs i hi
  have hexec : exec i s = .next (rxSecondAck b s) := exec_of_line ha hs hi rfl rfl
  exact exec_of_rxText hexec (matchSecondOk_setTxt _ s)

/-- Settles O13: TICK and its line count, and compare with DETECT_WINDOW. -/
theorem tickInDetectingInit : Obligations.TickInDetectingInit := by
  intro s ha hs i hi
  rw [exec_tick_of_detectingInit ha hs i hi]
  exact ⟨fun h => by rw [tickDetecting_of_eq h], fun h => by rw [tickDetecting_of_ne h]⟩

/-- Settles O14: in both acknowledgement states TICK and its line count, and compare with ACK_TIMEOUT. -/
theorem tickInAcknowledgementStates : Obligations.TickInAcknowledgementStates := by
  intro s ha i hi
  have hexec : exec i s = .next (tickAck s) :=
    hi.elim (fun ⟨hs, hi⟩ => exec_tick_of_awaitingFirstAck ha hs i hi)
      (fun ⟨hs, hi⟩ => exec_tick_of_awaitingSecondAck ha hs i hi)
  rw [hexec]
  exact ⟨fun h => by rw [tickAck_of_eq h], fun h => by rw [tickAck_of_ne h]⟩

/-- Settles O15: none of the four states has a window, and the reaction of each line is to ignore the event. -/
theorem tickOutsideTextStatesIsIgnored : Obligations.TickOutsideTextStatesIsIgnored := by
  intro s
  refine ⟨fun h => exec_tick_of_no_window ?_, fun _ _ => whenSelected_ignored _ s,
    fun _ _ => whenSelected_ignored _ s, fun _ _ => whenSelected_ignored _ s⟩
  rcases h with h | h | h | h <;> rw [h] <;> rfl

/-- Settles O17: each marker row is behind the test of its state and of the text. -/
theorem markersActWhereAwaited : Obligations.MarkersActWhereAwaited := by
  intro s
  refine ⟨fun ha hs hm => ?_, exec_markNotInit_of_not_awaited, fun ha hs hm => ?_, fun ha hs hm => ?_,
    exec_markOk_of_not_awaited⟩
  · exact whenSelected_of_true matchNotInit s (by simp [ha, hs, contains_iff, hm])
  · rw [exec_markOk_of_awaitingFirstAck ha hs]
    exact whenSelected_of_true matchFirstOk s ((contains_iff _ _).2 hm)
  · rw [exec_markOk_of_not_awaitingFirstAck (by simp [hs])]
    exact whenSelected_of_true matchSecondOk s (by simp [ha, hs, contains_iff, hm])

end Sys2Proof.Machine
end

section
/-! PROOF. The session: START, STOP and CLOSED with their dispatch lines, what an idle block ignores, and that a
session ends once (spec R240 to R249, R272, R282, R286). -/

namespace Sys2Proof.Machine

/-! ### What `active` decides -/

/-- An instruction whose reaction to `active = a` is `f`. It is looked at where `active` is written out, so that it
evaluates. -/
theorem exec_of_active {s : State} {a : Bool} {i : Instr} (f : State → State) (ha : s.active = a)
    (hexec : exec i { s with active := a } = .next (f { s with active := a })) : exec i s = .next (f s) := by
  subst ha
  exact hexec

/-- An event `e` and its line `l` for `active = a` have the one reaction `f` (spec R108). -/
theorem exec_of_sessionLine {s : State} {a : Bool} {i e l : Instr} (f : State → State) (ha : s.active = a)
    (hi : i = e ∨ i = l) (hevent : exec e { s with active := a } = .next (f { s with active := a }))
    (hline : exec l { s with active := a } = .next (f { s with active := a })) : exec i s = .next (f s) := by
  rcases hi with rfl | rfl
  · exact exec_of_active f ha hevent
  · exact exec_of_active f ha hline

/-! ### The reactions that end a session, and those where there is none -/

namespace Reaction

variable {s t : State} {e : Instr}

/-- RESET and STOP end a session silently, CLOSED and the end of an acknowledgement window with their own STATUS; each
of the four releases both memories (spec R282, R286). -/
theorem session_end (h : Reaction s e t) (ha : s.active = true) (hta : t.active = false) :
    t.txt = [] ∧ t.buf = [] ∧ (t.out = s.out ∨ ∃ o, t.out = s.out ++ [o] ∧ isErrorStatus o = true) := by
  cases h with
  | reset | stop _ => exact ⟨rfl, rfl, .inl rfl⟩
  | closed _ | ackExpires _ _ _ => exact ⟨rfl, rfl, .inr ⟨_, rfl, rfl⟩⟩
  | start _ => cases hta
  | _ => exact absurd (ha.symm.trans hta) nofun

/-- Where there is no session an event is ignored, or it is RESET or START (spec R240, R245, R247). -/
theorem idle_cases (h : Reaction s e t) (ha : s.active = false) :
    t = s ∨ (e = .reset ∧ t = resetBlock s) ∨ (e = .start ∧ t = beginSession s) := by
  cases h with
  | ignored => exact .inl rfl
  | reset => exact .inr (.inl ⟨rfl, rfl⟩)
  | start _ => exact .inr (.inr ⟨rfl, rfl⟩)
  | stop hsess | closed hsess | tickCounted hsess _ _ | detectionEnds hsess _ _ | ackExpires hsess _ _
  | textKept _ hsess _ _ | notInitSeen _ hsess _ _ | firstOkSeen _ hsess _ _ | secondOkSeen _ hsess _ _
  | byteHeld _ hsess _ | fed _ hsess _ | configWritten hsess _ | runWritten hsess _ =>
    exact absurd (ha.symm.trans hsess) nofun

/-- Where there is no session nothing is emitted, and START alone begins one (spec R247). -/
theorem idle_quiet (h : Reaction s e t) (ha : s.active = false) :
    t.out = s.out ∧ (t.active = true → e = .start) := by
  rcases h.idle_cases ha with rfl | ⟨-, rfl⟩ | ⟨rfl, rfl⟩
  · exact ⟨rfl, fun hta => absurd (ha.symm.trans hta) nofun⟩
  · exact ⟨rfl, nofun⟩
  · exact ⟨rfl, fun _ => rfl⟩

end Reaction

/-! ### The obligations -/

/-- Settles O58: what an event answers is one of its reactions, and of those the ends of a session and the ones outside
a session are known. -/
theorem sessionsEndOnce : Obligations.SessionsEndOnce := by
  intro s t w h
  have hr : Reaction s (decodeEvent w) t := reaction_of_exec h
  exact ⟨hr.session_end, hr.idle_quiet⟩

/-- Settles O3: START and its two lines begin a session, or are ignored, by `active`. -/
theorem startBeginsASessionOrIsIgnored : Obligations.StartBeginsASessionOrIsIgnored :=
  fun _ =>
    ⟨fun ha _ hi => exec_of_sessionLine beginSession ha hi rfl rfl,
      fun ha _ hi => exec_of_sessionLine ignored ha hi rfl rfl⟩

/-- Settles O4: STOP and its two lines tear the session down, or are ignored, by `active`. -/
theorem stopTearsDownSilently : Obligations.StopTearsDownSilently :=
  fun _ =>
    ⟨fun ha _ hi => exec_of_sessionLine stopSession ha hi rfl rfl,
      fun ha _ hi => exec_of_sessionLine ignored ha hi rfl rfl⟩

/-- Settles O5: CLOSED and its two lines raise TransportClosed, or are ignored, by `active`. -/
theorem closedRaisesTransportClosed : Obligations.ClosedRaisesTransportClosed :=
  fun _ =>
    ⟨fun ha _ hi => exec_of_sessionLine closeSession ha hi rfl rfl,
      fun ha _ hi => exec_of_sessionLine ignored ha hi rfl rfl⟩

/-- Settles O6: with `active` 0 each of the events is ignored, and each of the lines lets the state stand (log 4). -/
theorem idleEventsChangeNothing : Obligations.IdleEventsChangeNothing := by
  intro s b ha i hi
  simp only [List.mem_cons, List.not_mem_nil, or_false] at hi
  rcases hi with rfl | rfl | rfl | rfl | rfl | rfl | rfl | rfl | rfl | rfl <;> exact exec_of_active ignored ha rfl

end Sys2Proof.Machine
end

section
/-! PROOF. Reset, and two facts of the hazards: what one byte can complete, and that a stream of good frames is never
misframed (spec R310, R311, R320, R331). -/

namespace Sys2Proof.Machine

/-! ### Reset -/

theorem exec_reset (s : State) : exec .reset s = .next (resetBlock s) := rfl

theorem exec_start_of_idle {s : State} (ha : s.active = false) : exec .start s = .next (beginSession s) :=
  exec_of_active beginSession ha rfl

/-- START overwrites every element that RESET sets (spec R311 d). -/
theorem beginSession_resetBlock (s : State) : beginSession (resetBlock s) = beginSession s := rfl

/-! ### One byte in a drained buffer -/

section
variable {buf : List Byte} {off total : Nat} {b : Byte} (hd : drained buf = true)
  (h : scan (buf ++ [b]) = .complete off total)
include hd h

/-- A frame that one byte completes ends with that byte (spec R172). -/
theorem frame_ends_with_byte : off + total = buf.length + 1 := by
  have hbeyond : ¬ off + total ≤ buf.length := fun hin =>
    not_complete_of_drained hd off total (scan_complete_of_append h hin)
  have hin : off + total ≤ (buf ++ [b]).length := (scan_complete_bounds h).2.2
  rw [List.length_append, List.length_singleton] at hin
  omega

/-- Nothing lies behind that frame, so the loop ends with it (spec R331). -/
theorem feedBuf_byte_of_complete :
    feedBuf [b] buf = ([], frameEvents (frameAt (buf ++ [b]) off total) (rawAt (buf ++ [b]) off total)) := by
  have hrest : (buf ++ [b]).drop (off + total) = [] := by
    rw [frame_ends_with_byte hd h]
    exact List.drop_eq_nil_of_le (Nat.le_of_eq List.length_append)
  rw [feedBuf_eq, feedBuf_complete h, hrest, feedBuf_nil_of_drained drained_nil, List.append_nil]

end

/-- Without a complete frame nothing is emitted, and only a buffer without a sentinel may be trimmed (spec R162 to
R164). -/
theorem feedBuf_of_not_complete {chunk buf : List Byte} (h : ∀ off total, scan (buf ++ chunk) ≠ .complete off total) :
    (feedBuf chunk buf).2 = [] ∧
      (find Config.sentinel (buf ++ chunk) ≠ none → (feedBuf chunk buf).1 = buf ++ chunk) := by
  rw [feedBuf_eq]
  cases hs : scan (buf ++ chunk) with
  | noSentinel =>
    have hf := (scan_eq_noSentinel_iff _).1 hs
    exact ⟨(feedBuf_of_find_none hf).1, fun hne => absurd hf hne⟩
  | waiting =>
    rw [feedBuf_waiting hs]
    exact ⟨rfl, fun _ => rfl⟩
  | complete off total => exact absurd hs (h off total)

/-! ### A stream of good frames -/

/-- Noise, a well-formed frame of any class and whatever follows: the frame's events, then the loop on what follows
(spec R165, R170). -/
theorem feedBuf_frame {noise : List Byte} {f : Frame} (rest : List Byte) (hn : find Config.sentinel noise = none)
    (hf : WellFormed f.toInstr = true) :
    feedBuf [] (noise ++ f.bytes ++ rest) = ((feedBuf [] rest).1, frameEvents f f.bytes ++ (feedBuf [] rest).2) := by
  obtain ⟨hlen, hclass⟩ := classify_payload hf
  have hscan : scan (noise ++ f.bytes ++ rest) = .complete noise.length (2 + f.payload.length) :=
    scan_of_frame hn rfl hlen
  have hdrop : (noise ++ f.bytes ++ rest).drop (noise.length + (2 + f.payload.length)) = rest :=
    List.drop_left' (by simp [Frame.bytes]; omega)
  have hfront : frameAt (f.bytes ++ rest) 0 (2 + f.payload.length) = classify f.payload ∧
      rawAt (f.bytes ++ rest) 0 (2 + f.payload.length) = f.bytes := by
    simp [frameAt, rawAt, memRead, slice, Frame.bytes, Nat.add_comm 2]
  obtain ⟨hframe, hraw⟩ := frameAt_noise noise (f.bytes ++ rest) 0 (2 + f.payload.length)
  rw [Nat.add_zero, ← List.append_assoc] at hframe hraw
  rw [feedBuf_complete hscan, hdrop, hframe, hraw, hfront.1, hfront.2, hclass]

/-- The frame whose bytes `STATUSFRAME(r)` is: record data with the pair of its checksum (spec R107). -/
def imageFrame (r : List Byte) : Frame :=
  .status r (checksumPair (checksum (Config.cmdStatus :: r))).1 (checksumPair (checksum (Config.cmdStatus :: r))).2

theorem statusFrame_eq_bytes (r : List Byte) : statusFrame r = (imageFrame r).bytes := by
  simp [statusFrame, frameOf, imageFrame, Frame.bytes, Frame.payload]

theorem wellFormed_imageFrame {r : List Byte} (h : r.length ≤ 252) : WellFormed (imageFrame r).toInstr = true :=
  decide_eq_true h

/-- The pair of a word is read back as that word (spec R51). -/
theorem be16_checksumPair (v : BitVec 16) : be16 (checksumPair v).1 (checksumPair v).2 = v :=
  extractLsb'_append_halves (n := 8) v

/-- The frame of an image passes VALIDATE, and its event is the record (spec R167). -/
theorem frameEvents_imageFrame {r : List Byte} (h : Config.recordLen ≤ r.length) (raw : List Byte) :
    frameEvents (imageFrame r) raw = [.record (imageRecord r)] := by
  have hvalid := (validate_iff (Config.cmdStatus :: r) _ _).2 (be16_checksumPair _).symm
  rw [imageFrame, frameEvents, if_pos hvalid, decodeRecord_of_image h]

/-- Noise, then a good frame: its record is emitted, and the loop goes on right behind the frame, so that no byte of
the frame, 0xFF or not, is taken for a sentinel (spec R320). -/
theorem feedBuf_statusFrame {noise r : List Byte} (rest : List Byte) (hn : find Config.sentinel noise = none)
    (hmin : Config.recordLen ≤ r.length) (hmax : r.length ≤ 252) :
    feedBuf [] (noise ++ statusFrame r ++ rest) =
      ((feedBuf [] rest).1, .record (imageRecord r) :: (feedBuf [] rest).2) := by
  rw [statusFrame_eq_bytes, feedBuf_frame rest hn (wellFormed_imageFrame hmax), frameEvents_imageFrame hmin]
  rfl

/-- Good frames from a true frame start: each leaves the loop at the start of the next (spec R320). -/
theorem feedBuf_statusFrames {images : List (List Byte)}
    (hgood : ∀ r ∈ images, Config.recordLen ≤ r.length ∧ r.length ≤ 252) :
    feedBuf [] (images.flatMap statusFrame) = ([], images.map fun r => .record (imageRecord r)) := by
  induction images with
  | nil => exact feedBuf_nil_of_drained drained_nil
  | cons r rs ih =>
    obtain ⟨⟨hmin, hmax⟩, hrest⟩ := List.forall_mem_cons.1 hgood
    have hstep := feedBuf_statusFrame (noise := []) (rs.flatMap statusFrame) rfl hmin hmax
    rw [ih hrest] at hstep
    exact hstep

/-! ### The obligations -/

/-- Settles O29: a frame that the byte completes ends with it, and otherwise the loop makes no pass. -/
theorem oneRxEmitsAtMostOneEvent : Obligations.OneRxEmitsAtMostOneEvent := by
  intro s b hinv ha hs
  refine ⟨feed [b] s, exec_rx_of_streaming ha hs b, fun off total hscan => ?_, fun hno => ?_⟩
  · have hfeed := feedBuf_byte_of_complete hinv.buf_drained hscan
    rw [feed_buf, feed_out, hfeed]
    exact ⟨frame_ends_with_byte hinv.buf_drained hscan, rfl, rfl, frameEvents_length_le _ _⟩
  · obtain ⟨hevents, hkept⟩ := feedBuf_of_not_complete hno
    rw [feed_buf, feed_out, hevents, List.append_nil]
    exact ⟨rfl, hkept, feedBuf_suffix [b] s.buf⟩

/-- Settles O33: the first frame takes the noise with it, and the others follow from a true frame start. -/
theorem goodStreamGivesItsRecordsInOrder : Obligations.GoodStreamGivesItsRecordsInOrder := by
  intro buf images hn hne hgood
  refine ⟨images.map imageRecord, ?_, ?_⟩
  · rw [List.map_map]
    exact List.map_congr_left fun r hr => decodeRecord_of_image (hgood r hr).1
  · obtain ⟨r, rs, rfl⟩ := List.exists_cons_of_ne_nil hne
    obtain ⟨⟨hmin, hmax⟩, hrest⟩ := List.forall_mem_cons.1 hgood
    rw [feedBuf_eq, List.flatMap_cons, ← List.append_assoc, feedBuf_statusFrame _ hn hmin hmax,
      feedBuf_statusFrames hrest, List.map_map]
    rfl

/-- Settles O1: `resetBlock` writes exactly the six elements. -/
theorem resetSetsTheSixElements : Obligations.ResetSetsTheSixElements := exec_reset

/-- Settles O2: RESET leaves the block idle, and START overwrites all that RESET has set. -/
theorem resetValuesAndStartAfterReset : Obligations.ResetValuesAndStartAfterReset := by
  refine ⟨rfl, rfl, rfl, rfl, rfl, rfl, fun s t ha hreset => ?_⟩
  cases (exec_reset s).symm.trans hreset
  rw [exec_start_of_idle rfl, exec_start_of_idle ha, beginSession_resetBlock]

end Sys2Proof.Machine
end
